-- ==== Sys2Proof/Word.lean ====
section
/-!
DEFINITION. The two widths of the CORE (00_scope.md rule R4): a data byte, the spec's `u8`, and an address, its `u16`.
Both are bit vectors: software adds, shifts and masks them, and their arithmetic wraps (R6).
-/

namespace Sys2Proof

/-- A `u8` of 00_scope.md rule R6. -/
abbrev Byte := BitVec 8

/-- A `u16` of 00_scope.md rule R6: an address, or a word made of two bytes. -/
abbrev Addr := BitVec 16

end Sys2Proof
end

