-- ==== Sys2Proof/Machine/Bits.lean ====
section
/-!
DEFINITION. The bit-field and byte-order notation of 00_scope.md rule R6: `hi`, `lo`, `{h, l}` and `sext_8`, and the two
page addresses built from them.
-/

namespace Sys2Proof

/-- `hi(w) = w[15:8]` (00_scope.md rule R6). -/
def hiByte (w : Addr) : Byte := w.extractLsb' 8 8

/-- `lo(w) = w[7:0]` (00_scope.md rule R6). -/
def loByte (w : Addr) : Byte := w.extractLsb' 0 8

/-- `{h, l}`: `h` is the more significant byte (00_scope.md rule R6). -/
def word16 (h l : Byte) : Addr := h ++ l

/-- `sext_8(v)` as a 16-bit addend (00_scope.md rule R6; added modulo 65536, 10_state.md rule R24). -/
def sext8 (v : Byte) : Addr := v.signExtend 16

/-- `{0x00, z}`: an address in page zero (40_addressing.md rule R104). -/
def zpAddr (z : Byte) : Addr := word16 0x00 z

/-- `{0x01, sp}`, that is `0x0100 | sp`: an address in the stack page (10_state.md rule R25). -/
def stackAddr (sp : Byte) : Addr := word16 0x01 sp

/-- An unsigned index byte widened to an address (40_addressing.md rule R107: "The index is unsigned, 0..255"). -/
def zext8 (v : Byte) : Addr := v.setWidth 16

/-- The page-cross test `hi(ea) != hi(base)` (40_addressing.md rule R115). -/
def crossesPage (base ea : Addr) : Bool := hiByte ea != hiByte base

end Sys2Proof
end

