-- ==== Sys2Proof/Config.lean ====
section
/-!
DEFINITION. The parameters of 00_scope.md rule R5 that are fixed for a machine. `Config` is plain data held in State,
which nothing writes (log 3), so a statement about every state covers every value of both. `RESET_PC` and `INIT_MEM` are
arguments of `State.afterReset` and of the host's reset; `BUDGET` is an argument of `execute`.
-/

namespace Sys2Proof

/-- Where the high byte of a pointer is read when its low byte lies at the end of a page (00_scope.md rule R5). -/
inductive PtrWrap where
  /-- At the start of the same page. -/
  | wrap
  /-- At the next address. -/
  | carry
deriving DecidableEq, Repr

/-- The two open parameters an instruction reads (00_scope.md rule R5). -/
structure Config where
  /-- `ZP_PTR_WRAP` (40_addressing.md rule R114; decision D8). -/
  zpPtrWrap : PtrWrap
  /-- `JMP_IND_PAGE_WRAP` (40_addressing.md rule R113; decision D9). -/
  jmpIndPageWrap : PtrWrap
deriving DecidableEq, Repr

/-- The spec's defaults (00_scope.md rule R5): `wrap` for both. DESIGN CHOICE, log 3: State.reset takes them. -/
def Config.specDefault : Config := { zpPtrWrap := .wrap, jmpIndPageWrap := .wrap }

/-- `RESET_PC` of State.reset. DESIGN CHOICE, log 1: the spec gives none; 0x0200 is where 95_test_vectors.md starts. -/
def Config.resetPc : Addr := 0x0200

/-- `DEFAULT_LOAD_ADDRESS` (00_scope.md rule R5): the source gives no value, so it is left uninterpreted (log 8). -/
opaque Config.defaultLoadAddress : Addr

end Sys2Proof
end

