-- ==== Sys2Proof/Syntax.lean ====
section
/-!
DEFINITION. The instructions as data: one constructor of `Instr` per row of spec/opcode_table.json (spec rule R83,
30_encoding.md), with the operand bytes already assembled as rule R82 says. The opcode byte alone selects the
constructor (R80); a constructor's arguments are exactly the operand bytes of its format (R81). `Instr.mnemonic` and
`Instr.operand` read a constructor back as the table's (mnemonic, mode) pair.
-/

namespace Sys2Proof

/-- The 56 mnemonics of 30_encoding.md rule R83. -/
inductive Mnemonic where
  | ADC | AND | ASL | BCC | BCS | BEQ | BIT | BMI
  | BNE | BPL | BRK | BVC | BVS | CLC | CLD | CLI
  | CLV | CMP | CPX | CPY | DEC | DEX | DEY | EOR
  | INC | INX | INY | JMP | JSR | LDA | LDX | LDY
  | LSR | NOP | ORA | PHA | PHP | PLA | PLP | ROL
  | ROR | RTI | RTS | SBC | SEC | SED | SEI | STA
  | STX | STY | TAX | TAY | TSX | TXA | TXS | TYA
deriving DecidableEq, Repr

/-- The thirteen addressing modes of 30_encoding.md rule R81, by the spec's mode ids. -/
inductive Mode where
  | imp | acc | imm | zp | zpx | zpy | abs | absx | absy | indx | indy | ind | rel
deriving DecidableEq, Repr

/-- The register selector of 30_encoding.md rule R89: "a tagged choice of Accumulator/X/Y". -/
inductive Reg where
  | A | X | Y
deriving DecidableEq, Repr

/-- An operand in memory: the eight modes that resolve to an effective address (40_addressing.md rules R104 to R110). -/
inductive MemOperand where
  | zp (zp8 : Byte)
  | zpx (zp8 : Byte)
  | zpy (zp8 : Byte)
  | abs (addr : Addr)
  | absx (addr : Addr)
  | absy (addr : Addr)
  | indx (zp8 : Byte)
  | indy (zp8 : Byte)
deriving DecidableEq, Repr

/-- What an instruction that reads an operand reads it from (40_addressing.md rule R111, `ReadOperand`). -/
inductive Source where
  | imm (imm8 : Byte)
  | mem (m : MemOperand)
deriving DecidableEq, Repr

/-- The operand of an instruction, whatever its mode (30_encoding.md rules R81, R82). -/
inductive Operand where
  | imp
  | acc
  | imm (imm8 : Byte)
  | mem (m : MemOperand)
  | ind (ptr : Addr)
  | rel (rel8 : Byte)
deriving DecidableEq, Repr

/-- The mode of a memory operand. -/
def MemOperand.mode : MemOperand → Mode
  | .zp _ => .zp
  | .zpx _ => .zpx
  | .zpy _ => .zpy
  | .abs _ => .abs
  | .absx _ => .absx
  | .absy _ => .absy
  | .indx _ => .indx
  | .indy _ => .indy

/-- The mode of an operand. -/
def Operand.mode : Operand → Mode
  | .imp => .imp
  | .acc => .acc
  | .imm _ => .imm
  | .mem m => m.mode
  | .ind _ => .ind
  | .rel _ => .rel

/-- The length in bytes of an instruction of a mode, opcode byte included (30_encoding.md rules R81, R85). -/
def Mode.length : Mode → Nat
  | .imp | .acc => 1
  | .imm | .zp | .zpx | .zpy | .rel | .indx | .indy => 2
  | .abs | .absx | .absy | .ind => 3

/-- One constructor per opcode byte of the dispatch table, 151 in all (30_encoding.md rule R83). -/
inductive Instr where
  -- ADC and SBC
  | adcImm (imm8 : Byte)  -- 0x69
  | adcZp (zp8 : Byte)  -- 0x65
  | adcZpx (zp8 : Byte)  -- 0x75
  | adcAbs (addr : Addr)  -- 0x6D
  | adcAbsx (addr : Addr)  -- 0x7D
  | adcAbsy (addr : Addr)  -- 0x79
  | adcIndx (zp8 : Byte)  -- 0x61
  | adcIndy (zp8 : Byte)  -- 0x71
  | sbcImm (imm8 : Byte)  -- 0xE9
  | sbcZp (zp8 : Byte)  -- 0xE5
  | sbcZpx (zp8 : Byte)  -- 0xF5
  | sbcAbs (addr : Addr)  -- 0xED
  | sbcAbsx (addr : Addr)  -- 0xFD
  | sbcAbsy (addr : Addr)  -- 0xF9
  | sbcIndx (zp8 : Byte)  -- 0xE1
  | sbcIndy (zp8 : Byte)  -- 0xF1
  -- Compare
  | cmpImm (imm8 : Byte)  -- 0xC9
  | cmpZp (zp8 : Byte)  -- 0xC5
  | cmpZpx (zp8 : Byte)  -- 0xD5
  | cmpAbs (addr : Addr)  -- 0xCD
  | cmpAbsx (addr : Addr)  -- 0xDD
  | cmpAbsy (addr : Addr)  -- 0xD9
  | cmpIndx (zp8 : Byte)  -- 0xC1
  | cmpIndy (zp8 : Byte)  -- 0xD1
  | cpxImm (imm8 : Byte)  -- 0xE0
  | cpxZp (zp8 : Byte)  -- 0xE4
  | cpxAbs (addr : Addr)  -- 0xEC
  | cpyImm (imm8 : Byte)  -- 0xC0
  | cpyZp (zp8 : Byte)  -- 0xC4
  | cpyAbs (addr : Addr)  -- 0xCC
  -- Logic and BIT
  | andImm (imm8 : Byte)  -- 0x29
  | andZp (zp8 : Byte)  -- 0x25
  | andZpx (zp8 : Byte)  -- 0x35
  | andAbs (addr : Addr)  -- 0x2D
  | andAbsx (addr : Addr)  -- 0x3D
  | andAbsy (addr : Addr)  -- 0x39
  | andIndx (zp8 : Byte)  -- 0x21
  | andIndy (zp8 : Byte)  -- 0x31
  | oraImm (imm8 : Byte)  -- 0x09
  | oraZp (zp8 : Byte)  -- 0x05
  | oraZpx (zp8 : Byte)  -- 0x15
  | oraAbs (addr : Addr)  -- 0x0D
  | oraAbsx (addr : Addr)  -- 0x1D
  | oraAbsy (addr : Addr)  -- 0x19
  | oraIndx (zp8 : Byte)  -- 0x01
  | oraIndy (zp8 : Byte)  -- 0x11
  | eorImm (imm8 : Byte)  -- 0x49
  | eorZp (zp8 : Byte)  -- 0x45
  | eorZpx (zp8 : Byte)  -- 0x55
  | eorAbs (addr : Addr)  -- 0x4D
  | eorAbsx (addr : Addr)  -- 0x5D
  | eorAbsy (addr : Addr)  -- 0x59
  | eorIndx (zp8 : Byte)  -- 0x41
  | eorIndy (zp8 : Byte)  -- 0x51
  | bitZp (zp8 : Byte)  -- 0x24
  | bitAbs (addr : Addr)  -- 0x2C
  -- Loads
  | ldaImm (imm8 : Byte)  -- 0xA9
  | ldaZp (zp8 : Byte)  -- 0xA5
  | ldaZpx (zp8 : Byte)  -- 0xB5
  | ldaAbs (addr : Addr)  -- 0xAD
  | ldaAbsx (addr : Addr)  -- 0xBD
  | ldaAbsy (addr : Addr)  -- 0xB9
  | ldaIndx (zp8 : Byte)  -- 0xA1
  | ldaIndy (zp8 : Byte)  -- 0xB1
  | ldxImm (imm8 : Byte)  -- 0xA2
  | ldxZp (zp8 : Byte)  -- 0xA6
  | ldxZpy (zp8 : Byte)  -- 0xB6
  | ldxAbs (addr : Addr)  -- 0xAE
  | ldxAbsy (addr : Addr)  -- 0xBE
  | ldyImm (imm8 : Byte)  -- 0xA0
  | ldyZp (zp8 : Byte)  -- 0xA4
  | ldyZpx (zp8 : Byte)  -- 0xB4
  | ldyAbs (addr : Addr)  -- 0xAC
  | ldyAbsx (addr : Addr)  -- 0xBC
  -- Stores
  | staZp (zp8 : Byte)  -- 0x85
  | staZpx (zp8 : Byte)  -- 0x95
  | staAbs (addr : Addr)  -- 0x8D
  | staAbsx (addr : Addr)  -- 0x9D
  | staAbsy (addr : Addr)  -- 0x99
  | staIndx (zp8 : Byte)  -- 0x81
  | staIndy (zp8 : Byte)  -- 0x91
  | stxZp (zp8 : Byte)  -- 0x86
  | stxZpy (zp8 : Byte)  -- 0x96
  | stxAbs (addr : Addr)  -- 0x8E
  | styZp (zp8 : Byte)  -- 0x84
  | styZpx (zp8 : Byte)  -- 0x94
  | styAbs (addr : Addr)  -- 0x8C
  -- Transfers
  | tax  -- 0xAA
  | tay  -- 0xA8
  | txa  -- 0x8A
  | tya  -- 0x98
  -- Increment and decrement
  | incZp (zp8 : Byte)  -- 0xE6
  | incZpx (zp8 : Byte)  -- 0xF6
  | incAbs (addr : Addr)  -- 0xEE
  | incAbsx (addr : Addr)  -- 0xFE
  | decZp (zp8 : Byte)  -- 0xC6
  | decZpx (zp8 : Byte)  -- 0xD6
  | decAbs (addr : Addr)  -- 0xCE
  | decAbsx (addr : Addr)  -- 0xDE
  | inx  -- 0xE8
  | iny  -- 0xC8
  | dex  -- 0xCA
  | dey  -- 0x88
  -- Shifts and rotates
  | aslAcc  -- 0x0A
  | aslZp (zp8 : Byte)  -- 0x06
  | aslZpx (zp8 : Byte)  -- 0x16
  | aslAbs (addr : Addr)  -- 0x0E
  | aslAbsx (addr : Addr)  -- 0x1E
  | lsrAcc  -- 0x4A
  | lsrZp (zp8 : Byte)  -- 0x46
  | lsrZpx (zp8 : Byte)  -- 0x56
  | lsrAbs (addr : Addr)  -- 0x4E
  | lsrAbsx (addr : Addr)  -- 0x5E
  | rolAcc  -- 0x2A
  | rolZp (zp8 : Byte)  -- 0x26
  | rolZpx (zp8 : Byte)  -- 0x36
  | rolAbs (addr : Addr)  -- 0x2E
  | rolAbsx (addr : Addr)  -- 0x3E
  | rorAcc  -- 0x6A
  | rorZp (zp8 : Byte)  -- 0x66
  | rorZpx (zp8 : Byte)  -- 0x76
  | rorAbs (addr : Addr)  -- 0x6E
  | rorAbsx (addr : Addr)  -- 0x7E
  -- Branches
  | bpl (rel8 : Byte)  -- 0x10
  | bmi (rel8 : Byte)  -- 0x30
  | bvc (rel8 : Byte)  -- 0x50
  | bvs (rel8 : Byte)  -- 0x70
  | bcc (rel8 : Byte)  -- 0x90
  | bcs (rel8 : Byte)  -- 0xB0
  | bne (rel8 : Byte)  -- 0xD0
  | beq (rel8 : Byte)  -- 0xF0
  -- Stack
  | tsx  -- 0xBA
  | txs  -- 0x9A
  | pha  -- 0x48
  | php  -- 0x08
  | pla  -- 0x68
  | plp  -- 0x28
  -- Jumps and subroutines
  | jmpAbs (addr : Addr)  -- 0x4C
  | jmpInd (ptr : Addr)  -- 0x6C
  | jsr (addr : Addr)  -- 0x20
  | rts  -- 0x60
  -- Interrupt entry and exit
  | brk  -- 0x00
  | rti  -- 0x40
  -- Flags and NOP
  | clc  -- 0x18
  | sec  -- 0x38
  | cli  -- 0x58
  | sei  -- 0x78
  | clv  -- 0xB8
  | cld  -- 0xD8
  | sed  -- 0xF8
  | nop  -- 0xEA
deriving DecidableEq, Repr

/-- The mnemonic column of 30_encoding.md rule R83. -/
def Instr.mnemonic : Instr → Mnemonic
  | .adcImm _ | .adcZp _ | .adcZpx _ | .adcAbs _ | .adcAbsx _ | .adcAbsy _ | .adcIndx _ | .adcIndy _ => .ADC
  | .sbcImm _ | .sbcZp _ | .sbcZpx _ | .sbcAbs _ | .sbcAbsx _ | .sbcAbsy _ | .sbcIndx _ | .sbcIndy _ => .SBC
  | .cmpImm _ | .cmpZp _ | .cmpZpx _ | .cmpAbs _ | .cmpAbsx _ | .cmpAbsy _ | .cmpIndx _ | .cmpIndy _ => .CMP
  | .cpxImm _ | .cpxZp _ | .cpxAbs _ => .CPX
  | .cpyImm _ | .cpyZp _ | .cpyAbs _ => .CPY
  | .andImm _ | .andZp _ | .andZpx _ | .andAbs _ | .andAbsx _ | .andAbsy _ | .andIndx _ | .andIndy _ => .AND
  | .oraImm _ | .oraZp _ | .oraZpx _ | .oraAbs _ | .oraAbsx _ | .oraAbsy _ | .oraIndx _ | .oraIndy _ => .ORA
  | .eorImm _ | .eorZp _ | .eorZpx _ | .eorAbs _ | .eorAbsx _ | .eorAbsy _ | .eorIndx _ | .eorIndy _ => .EOR
  | .bitZp _ | .bitAbs _ => .BIT
  | .ldaImm _ | .ldaZp _ | .ldaZpx _ | .ldaAbs _ | .ldaAbsx _ | .ldaAbsy _ | .ldaIndx _ | .ldaIndy _ => .LDA
  | .ldxImm _ | .ldxZp _ | .ldxZpy _ | .ldxAbs _ | .ldxAbsy _ => .LDX
  | .ldyImm _ | .ldyZp _ | .ldyZpx _ | .ldyAbs _ | .ldyAbsx _ => .LDY
  | .staZp _ | .staZpx _ | .staAbs _ | .staAbsx _ | .staAbsy _ | .staIndx _ | .staIndy _ => .STA
  | .stxZp _ | .stxZpy _ | .stxAbs _ => .STX
  | .styZp _ | .styZpx _ | .styAbs _ => .STY
  | .tax => .TAX
  | .tay => .TAY
  | .txa => .TXA
  | .tya => .TYA
  | .incZp _ | .incZpx _ | .incAbs _ | .incAbsx _ => .INC
  | .decZp _ | .decZpx _ | .decAbs _ | .decAbsx _ => .DEC
  | .inx => .INX
  | .iny => .INY
  | .dex => .DEX
  | .dey => .DEY
  | .aslAcc | .aslZp _ | .aslZpx _ | .aslAbs _ | .aslAbsx _ => .ASL
  | .lsrAcc | .lsrZp _ | .lsrZpx _ | .lsrAbs _ | .lsrAbsx _ => .LSR
  | .rolAcc | .rolZp _ | .rolZpx _ | .rolAbs _ | .rolAbsx _ => .ROL
  | .rorAcc | .rorZp _ | .rorZpx _ | .rorAbs _ | .rorAbsx _ => .ROR
  | .bpl _ => .BPL
  | .bmi _ => .BMI
  | .bvc _ => .BVC
  | .bvs _ => .BVS
  | .bcc _ => .BCC
  | .bcs _ => .BCS
  | .bne _ => .BNE
  | .beq _ => .BEQ
  | .tsx => .TSX
  | .txs => .TXS
  | .pha => .PHA
  | .php => .PHP
  | .pla => .PLA
  | .plp => .PLP
  | .jmpAbs _ | .jmpInd _ => .JMP
  | .jsr _ => .JSR
  | .rts => .RTS
  | .brk => .BRK
  | .rti => .RTI
  | .clc => .CLC
  | .sec => .SEC
  | .cli => .CLI
  | .sei => .SEI
  | .clv => .CLV
  | .cld => .CLD
  | .sed => .SED
  | .nop => .NOP

/-- The operand of an instruction: the mode column of 30_encoding.md rule R83 with the bytes the mode has. -/
def Instr.operand : Instr → Operand
  | .tax | .tay | .txa | .tya | .inx | .iny | .dex | .dey => .imp
  | .tsx | .txs | .pha | .php | .pla | .plp | .rts | .brk => .imp
  | .rti | .clc | .sec | .cli | .sei | .clv | .cld | .sed => .imp
  | .nop => .imp
  | .aslAcc | .lsrAcc | .rolAcc | .rorAcc => .acc
  | .adcImm imm8 | .sbcImm imm8 | .cmpImm imm8 | .cpxImm imm8 | .cpyImm imm8 | .andImm imm8 | .oraImm imm8 | .eorImm imm8 => .imm imm8
  | .ldaImm imm8 | .ldxImm imm8 | .ldyImm imm8 => .imm imm8
  | .adcZp zp8 | .sbcZp zp8 | .cmpZp zp8 | .cpxZp zp8 | .cpyZp zp8 | .andZp zp8 | .oraZp zp8 | .eorZp zp8 => .mem (.zp zp8)
  | .bitZp zp8 | .ldaZp zp8 | .ldxZp zp8 | .ldyZp zp8 | .staZp zp8 | .stxZp zp8 | .styZp zp8 | .incZp zp8 => .mem (.zp zp8)
  | .decZp zp8 | .aslZp zp8 | .lsrZp zp8 | .rolZp zp8 | .rorZp zp8 => .mem (.zp zp8)
  | .adcZpx zp8 | .sbcZpx zp8 | .cmpZpx zp8 | .andZpx zp8 | .oraZpx zp8 | .eorZpx zp8 | .ldaZpx zp8 | .ldyZpx zp8 => .mem (.zpx zp8)
  | .staZpx zp8 | .styZpx zp8 | .incZpx zp8 | .decZpx zp8 | .aslZpx zp8 | .lsrZpx zp8 | .rolZpx zp8 | .rorZpx zp8 => .mem (.zpx zp8)
  | .ldxZpy zp8 | .stxZpy zp8 => .mem (.zpy zp8)
  | .adcAbs addr | .sbcAbs addr | .cmpAbs addr | .cpxAbs addr | .cpyAbs addr | .andAbs addr | .oraAbs addr | .eorAbs addr => .mem (.abs addr)
  | .bitAbs addr | .ldaAbs addr | .ldxAbs addr | .ldyAbs addr | .staAbs addr | .stxAbs addr | .styAbs addr | .incAbs addr => .mem (.abs addr)
  | .decAbs addr | .aslAbs addr | .lsrAbs addr | .rolAbs addr | .rorAbs addr | .jmpAbs addr | .jsr addr => .mem (.abs addr)
  | .adcAbsx addr | .sbcAbsx addr | .cmpAbsx addr | .andAbsx addr | .oraAbsx addr | .eorAbsx addr | .ldaAbsx addr | .ldyAbsx addr => .mem (.absx addr)
  | .staAbsx addr | .incAbsx addr | .decAbsx addr | .aslAbsx addr | .lsrAbsx addr | .rolAbsx addr | .rorAbsx addr => .mem (.absx addr)
  | .adcAbsy addr | .sbcAbsy addr | .cmpAbsy addr | .andAbsy addr | .oraAbsy addr | .eorAbsy addr | .ldaAbsy addr | .ldxAbsy addr => .mem (.absy addr)
  | .staAbsy addr => .mem (.absy addr)
  | .adcIndx zp8 | .sbcIndx zp8 | .cmpIndx zp8 | .andIndx zp8 | .oraIndx zp8 | .eorIndx zp8 | .ldaIndx zp8 | .staIndx zp8 => .mem (.indx zp8)
  | .adcIndy zp8 | .sbcIndy zp8 | .cmpIndy zp8 | .andIndy zp8 | .oraIndy zp8 | .eorIndy zp8 | .ldaIndy zp8 | .staIndy zp8 => .mem (.indy zp8)
  | .jmpInd ptr => .ind ptr
  | .bpl rel8 | .bmi rel8 | .bvc rel8 | .bvs rel8 | .bcc rel8 | .bcs rel8 | .bne rel8 | .beq rel8 => .rel rel8

/-- The mode column of 30_encoding.md rule R83. -/
def Instr.mode (i : Instr) : Mode := i.operand.mode

/-- The bytes column of 30_encoding.md rule R83 (a function of the mode alone, rule R85). -/
def Instr.length (i : Instr) : Nat := i.mode.length

end Sys2Proof
end

