-- ==== Sys2Proof/Machine/State.lean ====
section
/-!
DEFINITION. The architectural state of 10_state.md rule R20 and the memory of rule R38, the reasons a step can stop, and
the state after reset (70_reset_and_hazards.md rules R280 to R282).
-/

namespace Sys2Proof.Machine

/-- Memory as a list of (address, byte) pairs, in the canonical form `Memory.wf` of Machine/Ops.lean: any content of the
65536 bytes of 10_state.md rule R38 is exactly one such list. -/
abbrev Memory := List Host.Cell

/-- The seven named flags of 10_state.md rule R26. -/
inductive Flag where
  | C | Z | I | D | B | V | N
deriving DecidableEq, Repr

/-- The record of 10_state.md rule R20, the memory of rule R38, and the parameters of 00_scope.md rule R5. -/
structure State where
  /-- `A`, the accumulator (10_state.md rule R21). -/
  a : Byte
  /-- `X`, an index register (10_state.md rule R21). -/
  x : Byte
  /-- `Y`, an index register (10_state.md rule R21). -/
  y : Byte
  /-- `SP`, the stack pointer (10_state.md rule R25). -/
  sp : Byte
  /-- `P`, the status register, all eight bits stored (10_state.md rules R26, R32). -/
  p : Byte
  /-- `PC`, the address of the next instruction byte (10_state.md rule R23). -/
  pc : Addr
  /-- `CYC`, the cycles the current `execute` call has spent (10_state.md rule R37). -/
  cyc : Nat
  /-- `MEM`, the 65536 bytes (10_state.md rule R38). -/
  mem : Memory
  /-- The model's own field, no state of the spec: the parameters of 00_scope.md rule R5, which nothing writes (log 3). -/
  cfg : Config
deriving DecidableEq, Repr

/-- Why the machine stops with a fault. -/
inductive Fault where
  /-- `DecimalModeFault`: raised by ADC and SBC, all sixteen forms, when `P.D = 1` (41_arith_logic.md rule R123). Safe:
  the spec makes it terminal and gives it no state (60_exceptions.md rule R251; log 5). -/
  | decimalMode
deriving DecidableEq, Repr

/-- Why a step answers with no next state although nothing is at fault. -/
inductive Refusal where
  /-- Raised by `exec` for an instruction the model gives no meaning. No arm raises it: every instruction has its
  meaning. Safe. -/
  | notModelled (mnemonic : String)
  /-- `Halted(op)`: raised by `step` when the fetched opcode byte is one of the 105 unknown ones (46_dispatch_loop.md
  rule R232). It ends the `execute` call, which reports the state left (`stateAfterHalt`). Safe: 60_exceptions.md rule R251
  lets a model take it as a refusal (log 4). -/
  | unknownOpcode (op : Byte)
deriving DecidableEq, Repr

/-- What an instruction's meaning answers. -/
abbrev Result := Host.Outcome State Fault Refusal

/-- The state after reset for any `RESET_PC` and any `INIT_MEM` (70_reset_and_hazards.md rules R280 to R282). -/
def State.afterReset (cfg : Config) (resetPc : Addr) (initMem : Memory) : State :=
  { a := 0x00, x := 0x00, y := 0x00, sp := 0xFF, p := 0x00, pc := resetPc, cyc := 0, mem := initMem, cfg := cfg }

/-- The machine right after reset (70_reset_and_hazards.md rule R280), with `RESET_PC` 0x0200 (log 1), `INIT_MEM` with
nothing listed (log 2) and the spec's default parameters (log 3). -/
def State.reset : State := State.afterReset Config.specDefault Config.resetPc []

end Sys2Proof.Machine
end

