-- ==== Sys2Proof/Machine/Flags.lean ====
section
/-!
DEFINITION. The status register's codec (10_state.md rules R26, R35, R36), the ALU's results and flags
(41_arith_logic.md rules R120, R124), the shifts (43_shift_rotate_branch.md rules R170 to R173) and the masks of a status
push and pull (44_stack_jump_interrupt.md rules R197, R199), all over bytes.
-/

namespace Sys2Proof.Machine

/-- The bit of `P` that holds a flag (10_state.md rule R26). -/
def Flag.bit : Flag → Nat
  | .C => 0
  | .Z => 1
  | .I => 2
  | .D => 3
  | .B => 4
  | .V => 6
  | .N => 7

/-- The mask of a flag in `P` (10_state.md rule R26). -/
def Flag.mask (f : Flag) : Byte := 1#8 <<< f.bit

/-- `get_flag(f) = P[bit(f)]` (10_state.md rule R35). -/
def getFlag (f : Flag) (p : Byte) : Bool := p.getLsbD f.bit

/-- Bit 5 of `P`, which is no named flag (10_state.md rule R32). -/
def unusedBit (p : Byte) : Bool := p.getLsbD 5

/-- `set_flag(f, b)`: writes the flag's bit and leaves the other seven alone (10_state.md rule R35). -/
def setFlag (f : Flag) (b : Bool) (p : Byte) : Byte :=
  if b then p ||| f.mask else p &&& ~~~f.mask

/-- `SetZN(v)` (10_state.md rule R36). -/
def setZN (v p : Byte) : Byte := setFlag .N v.msb (setFlag .Z (v == 0) p)

/-- `AddCore(a, m, c)`: the byte result, the carry and the overflow (41_arith_logic.md rule R120). -/
def addCore (a m : Byte) (c : Bool) : Byte × Bool × Bool :=
  let t := a.toNat + m.toNat + c.toNat
  let r : Byte := BitVec.ofNat 8 t
  (r, decide (t > 255), (a.msb == m.msb) && (r.msb != a.msb))

/-- The status after ADC or SBC wrote C, V, Z and N (41_arith_logic.md rules R121, R122). -/
def setCVZN (c v : Bool) (r p : Byte) : Byte := setZN r (setFlag .V v (setFlag .C c p))

/-- The status after `Compare(reg, m)` (41_arith_logic.md rule R124). -/
def compareStatus (reg m p : Byte) : Byte :=
  setFlag .N (reg - m).msb (setFlag .Z (reg == m) (setFlag .C (decide (m.toNat ≤ reg.toNat)) p))

/-- The status after BIT with accumulator `a` and operand `m` (41_arith_logic.md rule R131). -/
def bitStatus (a m p : Byte) : Byte :=
  setFlag .N (m.getLsbD 7) (setFlag .V (m.getLsbD 6) (setFlag .Z (a &&& m == 0) p))

/-- What a read-modify-write operation makes of the byte `v` and the status: the byte to write and the new status
(40_addressing.md rule R111, `Modify`; 43_shift_rotate_branch.md, `Operate`). -/
abbrev ModifyFn := Byte → Byte → Byte × Byte

/-- The result byte `r` of a shift with the bit shifted out in C, and Z and N of `r` (43_shift_rotate_branch.md). -/
def shifted (r : Byte) (out : Bool) (p : Byte) : Byte × Byte := (r, setZN r (setFlag .C out p))

/-- `f` of 42_load_store_transfer_incdec.md rule R150. -/
def incFn : ModifyFn := fun v p => (v + 1, setZN (v + 1) p)

/-- `f` of 42_load_store_transfer_incdec.md rule R151. -/
def decFn : ModifyFn := fun v p => (v - 1, setZN (v - 1) p)

/-- `f` of 43_shift_rotate_branch.md rule R170. -/
def aslFn : ModifyFn := fun v p => shifted (v <<< 1) (v.getLsbD 7) p

/-- `f` of 43_shift_rotate_branch.md rule R171. -/
def lsrFn : ModifyFn := fun v p => shifted (v >>> 1) (v.getLsbD 0) p

/-- `f` of 43_shift_rotate_branch.md rule R172: the old carry comes in at bit 0. -/
def rolFn : ModifyFn := fun v p =>
  shifted ((v <<< 1) ||| (if getFlag .C p then 0x01 else 0x00)) (v.getLsbD 7) p

/-- `f` of 43_shift_rotate_branch.md rule R173: the old carry comes in at bit 7. -/
def rorFn : ModifyFn := fun v p =>
  shifted ((v >>> 1) ||| (if getFlag .C p then 0x80 else 0x00)) (v.getLsbD 0) p

/-- The byte a status push writes: bits 4 and 5 forced to 1 (44_stack_jump_interrupt.md rules R197, R204). -/
def pushedStatus (p : Byte) : Byte := p ||| 0x30

/-- The status after a pull of `v`: bits 4 and 5 keep their live values (44_stack_jump_interrupt.md rules R199, R205). -/
def pulledStatus (v p : Byte) : Byte := (v &&& 0xCF) ||| (p &&& 0x30)

end Sys2Proof.Machine
end

