-- ==== Sys2Proof/Machine/Ops.lean ====
section
/-!
DEFINITION. The named operations over memory and registers: the memory port (20_memory.md rule R51), the register
accessors (30_encoding.md rule R89), the instruction-stream fetches (40_addressing.md rule R100), the stack unit
(44_stack_jump_interrupt.md rules R190 to R193), and, once for the whole model, interrupt entry and return
(44_stack_jump_interrupt.md rules R204, R205; 60_exceptions.md rules R255, R256).
-/

namespace Sys2Proof.Machine

/-! ### Memory as data -/

/-- What an address that no pair lists reads as: 0x00, what the reference reset leaves (70_reset_and_hazards.md rule
R281). DESIGN CHOICE, log 2. -/
def Memory.unlisted (_addr : Nat) : Byte := 0x00

/-- The byte at an address. -/
def Memory.read : Memory → Nat → Byte
  | [], addr => Memory.unlisted addr
  | (k, v) :: rest, addr => if k = addr then v else Memory.read rest addr

/-- The list without the pair of an address (in a list whose addresses rise). -/
def Memory.erase : Memory → Nat → Memory
  | [], _ => []
  | (k, v) :: rest, addr => if k = addr then rest else (k, v) :: Memory.erase rest addr

/-- The list with a pair put at its place (in a list whose addresses rise). -/
def Memory.insert : Memory → Nat → Byte → Memory
  | [], addr, v => [(addr, v)]
  | (k, w) :: rest, addr, v =>
    if addr < k then (addr, v) :: (k, w) :: rest
    else if addr = k then (addr, v) :: rest
    else (k, w) :: Memory.insert rest addr v

/-- Write the byte at an address, keeping the canonical form. -/
def Memory.write (m : Memory) (addr : Nat) (v : Byte) : Memory :=
  if v = Memory.unlisted addr then Memory.erase m addr else Memory.insert m addr v

/-- The pairs from `lo` upwards are canonical: addresses strictly rising, each below 65536, no pair equal to what an
unlisted address reads as. -/
def Memory.wfFrom : Nat → Memory → Bool
  | _, [] => true
  | lo, (k, v) :: rest =>
    decide (lo ≤ k) && decide (k < 65536) && (v != Memory.unlisted k) && Memory.wfFrom (k + 1) rest

/-- The canonical form of memory. -/
def Memory.wf (m : Memory) : Bool := Memory.wfFrom 0 m

/-! ### Named updates of State -/

/-- `A <- v`. -/
def State.setA (v : Byte) (s : State) : State := { s with a := v }
/-- `X <- v`. -/
def State.setX (v : Byte) (s : State) : State := { s with x := v }
/-- `Y <- v`. -/
def State.setY (v : Byte) (s : State) : State := { s with y := v }
/-- `SP <- v`. -/
def State.setSp (v : Byte) (s : State) : State := { s with sp := v }
/-- `P <- v`. -/
def State.setP (v : Byte) (s : State) : State := { s with p := v }
/-- `PC <- v`. -/
def State.setPc (v : Addr) (s : State) : State := { s with pc := v }
/-- `MEM <- m`. -/
def State.setMem (m : Memory) (s : State) : State := { s with mem := m }
/-- `tick(n)`: spend `n` cycles with no access (10_state.md rule R37). -/
def State.tick (n : Nat) (s : State) : State := { s with cyc := s.cyc + n }

/-- `x[r]` (00_scope.md rule R7). -/
def State.reg (r : Reg) (s : State) : Byte :=
  match r with
  | .A => s.a
  | .X => s.x
  | .Y => s.y

/-- `x[r] <- v` (00_scope.md rule R7). -/
def State.setReg (r : Reg) (v : Byte) (s : State) : State :=
  match r with
  | .A => s.setA v
  | .X => s.setX v
  | .Y => s.setY v

/-- A flag of the live status register. -/
def State.flag (f : Flag) (s : State) : Bool := getFlag f s.p

/-- `P.f <- b` (10_state.md rule R35). -/
def State.setFlag (f : Flag) (b : Bool) (s : State) : State := s.setP (Machine.setFlag f b s.p)

/-- `SetZN(v)` on the live status register (10_state.md rule R36). -/
def State.setZN (v : Byte) (s : State) : State := s.setP (Machine.setZN v s.p)

/-! ### The memory port (20_memory.md rule R51) -/

/-- `MEM[addr]`, at no cost: what the port's read returns. -/
def State.byteAt (s : State) (addr : Addr) : Byte := s.mem.read addr.toNat

/-- `MemRead(addr, 1)`: the byte, and one cycle spent. -/
def memRead (addr : Addr) (s : State) : Byte × State := (s.byteAt addr, s.tick 1)

/-- `MemWrite(addr, 1, v)`: one byte changes, and one cycle is spent. -/
def memWrite (addr : Addr) (v : Byte) (s : State) : State := (s.setMem (s.mem.write addr.toNat v)).tick 1

/-! ### The instruction stream (40_addressing.md rule R100) -/

/-- `Fetch8()`. -/
def fetch8 (s : State) : Byte × State :=
  let (v, s1) := memRead s.pc s
  (v, s1.setPc (s1.pc + 1))

/-- `Fetch16()`: low byte first. -/
def fetch16 (s : State) : Addr × State :=
  let (l, s1) := fetch8 s
  let (h, s2) := fetch8 s1
  (word16 h l, s2)

/-! ### The stack unit (44_stack_jump_interrupt.md rules R190 to R193) -/

/-- `Push8(v)` (rule R190). -/
def push8 (v : Byte) (s : State) : State :=
  let s1 := memWrite (stackAddr s.sp) v s
  s1.setSp (s1.sp - 1)

/-- `Pop8()` (rule R191). -/
def pop8 (s : State) : Byte × State :=
  let s1 := s.setSp (s.sp + 1)
  memRead (stackAddr s1.sp) s1

/-- `Push16(w)`: high byte first (rule R192). -/
def push16 (w : Addr) (s : State) : State := push8 (loByte w) (push8 (hiByte w) s)

/-- `Pop16()`: low byte first (rule R193). -/
def pop16 (s : State) : Addr × State :=
  let (l, s1) := pop8 s
  let (h, s2) := pop8 s1
  (word16 h l, s2)

/-! ### Taking an interrupt, and returning from one -/

/-- The interrupt vector's low byte lies here, its high byte at the next address (20_memory.md rule R57). -/
def vectorAddr : Addr := 0xFFFE

/-- Read the two bytes of the interrupt vector, low then high (44_stack_jump_interrupt.md rule R204). -/
def readVector (s : State) : Addr × State :=
  let (l, s1) := memRead vectorAddr s
  let (h, s2) := memRead (vectorAddr + 1) s1
  (word16 h l, s2)

/-- Interrupt entry (44_stack_jump_interrupt.md rule R204; 60_exceptions.md rule R255): the return address `ret`, high
byte first, then the status with bits 4 and 5 forced, are pushed; `PC` comes from the vector; then B and I are set. -/
def enterInterrupt (ret : Addr) (s : State) : State :=
  let s1 := push16 ret s
  let s2 := push8 (pushedStatus s1.p) s1
  let (target, s3) := readVector s2
  let s4 := s3.setPc target
  ((s4.setFlag .B true).setFlag .I true).tick 1

/-- Return from interrupt (44_stack_jump_interrupt.md rule R205; 60_exceptions.md rule R256): pull the status under the
mask 0xCF, pop `PC` with no + 1, then clear B. -/
def returnFromInterrupt (s : State) : State :=
  let (v, s1) := pop8 s
  let s2 := s1.setP (pulledStatus v s1.p)
  let (ret, s3) := pop16 s2
  let s4 := s3.setPc ret
  (s4.setFlag .B false).tick 2

end Sys2Proof.Machine
end

