-- ==== Sys2Proof/Machine/Operands.lean ====
section
/-!
DEFINITION. The addressing-mode resolver (40_addressing.md). The operand bytes are already fetched when an instruction's
meaning runs (log 6), so a cost named here is the mode's cost less the fetches of its operand bytes. `resolve` follows the
rules' pseudocode, access by access; `effAddr` and `resolveCycles` are the same address and cost in closed form (equal by
`resolve_eq`, Laws/Operands.lean).
-/

namespace Sys2Proof.Machine

/-- The two flavours of a resolver call (40_addressing.md rules R107, R108). -/
inductive Flavour where
  /-- The instruction only reads the operand: the extra cycle is spent on a page cross. -/
  | read
  /-- The instruction writes the effective address: the extra cycle is always spent. -/
  | store
deriving DecidableEq, Repr

/-! ### Pointers -/

/-- Where the high byte of the zero-page pointer at `z` is read (40_addressing.md rule R114). -/
def zpPtrHiAddr (w : PtrWrap) (z : Byte) : Addr :=
  match w with
  | .wrap => zpAddr (z + 1)
  | .carry => zpAddr z + 1

/-- `ReadPtrZP(z)` (40_addressing.md rule R114): two reads, low byte first. -/
def readPtrZP (z : Byte) (s : State) : Addr × State :=
  let (l, s1) := memRead (zpAddr z) s
  let (h, s2) := memRead (zpPtrHiAddr s.cfg.zpPtrWrap z) s1
  (word16 h l, s2)

/-- Where `JMP (ptr)` reads the high byte of its target (40_addressing.md rule R113). -/
def jmpIndHiAddr (w : PtrWrap) (ptr : Addr) : Addr :=
  match w with
  | .wrap => word16 (hiByte ptr) (loByte ptr + 1)
  | .carry => ptr + 1

/-- The target of `JMP (ptr)` (40_addressing.md rule R113): two reads, low byte first. -/
def readJmpTarget (ptr : Addr) (s : State) : Addr × State :=
  let (l, s1) := memRead ptr s
  let (h, s2) := memRead (jmpIndHiAddr s.cfg.jmpIndPageWrap ptr) s1
  (word16 h l, s2)

/-! ### Effective addresses -/

/-- Add an index to a base and spend the extra cycle of the flavour (40_addressing.md rules R107, R108, R110). -/
def indexed (fl : Flavour) (base : Addr) (index : Byte) (s : State) : Addr × State :=
  let ea := base + zext8 index
  match fl with
  | .read => (ea, if crossesPage base ea then s.tick 1 else s)
  | .store => (ea, s.tick 1)

/-- `EA(mode, flavour)` (40_addressing.md rules R104 to R110). -/
def resolve (fl : Flavour) (m : MemOperand) (s : State) : Addr × State :=
  match m with
  | .zp z => (zpAddr z, s)
  | .zpx z => (zpAddr (z + s.x), s.tick 1)
  | .zpy z => (zpAddr (z + s.y), s.tick 1)
  | .abs a => (a, s)
  | .absx a => indexed fl a s.x s
  | .absy a => indexed fl a s.y s
  | .indx z => readPtrZP (z + s.x) (s.tick 1)
  | .indy z =>
    let (base, s1) := readPtrZP z s
    indexed fl base s1.y s1

/-! ### The three access patterns (40_addressing.md rule R111) -/

/-- `ReadOperand(mode)`. -/
def readOperand (src : Source) (s : State) : Byte × State :=
  match src with
  | .imm v => (v, s)
  | .mem m =>
    let (ea, s1) := resolve .read m s
    memRead ea s1

/-- `WriteResult(mode, v)`. -/
def writeResult (m : MemOperand) (v : Byte) (s : State) : State :=
  let (ea, s1) := resolve .store m s
  memWrite ea v s1

/-- `Modify(mode, f)`, and `Operate(mode, f)` of 43_shift_rotate_branch.md in a memory mode: one read, one extra cycle,
one write, all at one address; `f` also gives the new status. -/
def modify (f : ModifyFn) (m : MemOperand) (s : State) : State :=
  let (ea, s1) := resolve .store m s
  let (v, s2) := memRead ea s1
  let s3 := s2.tick 1
  let (r, p) := f v s3.p
  (memWrite ea r s3).setP p

/-- `Operate(acc, f)` (43_shift_rotate_branch.md; 40_addressing.md rule R102). -/
def operateAcc (f : ModifyFn) (s : State) : State :=
  let s1 := s.tick 1
  let (r, p) := f s1.a s1.p
  (s1.setA r).setP p

/-! ### Closed forms -/

/-- The zero-page pointer at `z`, as a value. -/
def zpPointer (z : Byte) (s : State) : Addr :=
  word16 (s.byteAt (zpPtrHiAddr s.cfg.zpPtrWrap z)) (s.byteAt (zpAddr z))

/-- The target of `JMP (ptr)`, as a value. -/
def jmpIndTarget (ptr : Addr) (s : State) : Addr :=
  word16 (s.byteAt (jmpIndHiAddr s.cfg.jmpIndPageWrap ptr)) (s.byteAt ptr)

/-- The address an operand resolves to before any index is added after the pointer or base is known. -/
def baseAddr (m : MemOperand) (s : State) : Addr :=
  match m with
  | .zp z => zpAddr z
  | .zpx z => zpAddr (z + s.x)
  | .zpy z => zpAddr (z + s.y)
  | .abs a | .absx a | .absy a => a
  | .indx z => zpPointer (z + s.x) s
  | .indy z => zpPointer z s

/-- The effective address of an operand (40_addressing.md rules R104 to R110). It is the same in both flavours. -/
def effAddr (m : MemOperand) (s : State) : Addr :=
  match m with
  | .absx _ => baseAddr m s + zext8 s.x
  | .absy _ | .indy _ => baseAddr m s + zext8 s.y
  | .zp _ | .zpx _ | .zpy _ | .abs _ | .indx _ => baseAddr m s

/-- The extra cycle of an indexed address (40_addressing.md rules R107, R108, R110). -/
def indexCycles (fl : Flavour) (m : MemOperand) (s : State) : Nat :=
  match fl with
  | .read => if crossesPage (baseAddr m s) (effAddr m s) then 1 else 0
  | .store => 1

/-- The cycles `resolve` spends: pointer reads and extra cycles (40_addressing.md rules R104 to R110). -/
def resolveCycles (fl : Flavour) (m : MemOperand) (s : State) : Nat :=
  match m with
  | .zp _ | .abs _ => 0
  | .zpx _ | .zpy _ => 1
  | .absx _ | .absy _ => indexCycles fl m s
  | .indx _ => 3
  | .indy _ => 2 + indexCycles fl m s

/-- The operand an instruction reads, as a value. -/
def sourceValue (src : Source) (s : State) : Byte :=
  match src with
  | .imm v => v
  | .mem m => s.byteAt (effAddr m s)

/-- The cycles `readOperand` spends. -/
def sourceCycles (src : Source) (s : State) : Nat :=
  match src with
  | .imm _ => 0
  | .mem m => resolveCycles .read m s + 1

end Sys2Proof.Machine
end

