-- ==== Sys2Proof/Machine/ArithLogic.lean ====
section
/-!
DEFINITION. Arithmetic and logic (41_arith_logic.md): ADC, SBC, CMP, CPX, CPY, AND, ORA, EOR, BIT. A shared operation for each
mnemonic, and one meaning per opcode byte.
-/

namespace Sys2Proof.Machine

/-- The adder on `A` and the operand as `f` gives it to it, C, V, Z and N written (rules R121, R122). -/
def addInto (f : Byte → Byte) (src : Source) (s : State) : State :=
  let (m, s1) := readOperand src s
  let (r, c, v) := addCore s1.a (f m) (s1.flag .C)
  (s1.setA r).setP (setCVZN c v r s1.p)

/-- ADC (rules R121, R123): a decimal-mode fault when `P.D = 1`, else the adder on the operand. -/
def adc (src : Source) (s : State) : Result :=
  if s.flag .D then .fault .decimalMode else .next (addInto (fun m => m) src s)

/-- SBC (rules R122, R123): a decimal-mode fault when `P.D = 1`, else the adder on the complemented operand. -/
def sbc (src : Source) (s : State) : Result :=
  if s.flag .D then .fault .decimalMode else .next (addInto (fun m => m ^^^ 0xFF) src s)

/-- Compare a register with the operand (rules R124 to R127). -/
def compare (reg : Reg) (src : Source) (s : State) : State :=
  let (m, s1) := readOperand src s
  s1.setP (compareStatus (s1.reg reg) m s1.p)

/-- A logic operation of the operand into `A` (rules R128 to R130). -/
def logic (f : Byte → Byte → Byte) (src : Source) (s : State) : State :=
  let (m, s1) := readOperand src s
  (s1.setA (f s1.a m)).setZN (f s1.a m)

/-- BIT (rule R131). -/
def bitTest (src : Source) (s : State) : State :=
  let (m, s1) := readOperand src s
  s1.setP (bitStatus s1.a m s1.p)

/-! ### ADC and SBC -/

/-- `ADC #v` (rule R121). -/
def execAdcImm (imm8 : Byte) (s : State) : Result := adc (.imm imm8) s

/-- `ADC z` (rule R121). -/
def execAdcZp (zp8 : Byte) (s : State) : Result := adc (.mem (.zp zp8)) s

/-- `ADC z,X` (rule R121). -/
def execAdcZpx (zp8 : Byte) (s : State) : Result := adc (.mem (.zpx zp8)) s

/-- `ADC a` (rule R121). -/
def execAdcAbs (addr : Addr) (s : State) : Result := adc (.mem (.abs addr)) s

/-- `ADC a,X` (rule R121). -/
def execAdcAbsx (addr : Addr) (s : State) : Result := adc (.mem (.absx addr)) s

/-- `ADC a,Y` (rule R121). -/
def execAdcAbsy (addr : Addr) (s : State) : Result := adc (.mem (.absy addr)) s

/-- `ADC (z,X)` (rule R121). -/
def execAdcIndx (zp8 : Byte) (s : State) : Result := adc (.mem (.indx zp8)) s

/-- `ADC (z),Y` (rule R121). -/
def execAdcIndy (zp8 : Byte) (s : State) : Result := adc (.mem (.indy zp8)) s

/-- `SBC #v` (rule R122). -/
def execSbcImm (imm8 : Byte) (s : State) : Result := sbc (.imm imm8) s

/-- `SBC z` (rule R122). -/
def execSbcZp (zp8 : Byte) (s : State) : Result := sbc (.mem (.zp zp8)) s

/-- `SBC z,X` (rule R122). -/
def execSbcZpx (zp8 : Byte) (s : State) : Result := sbc (.mem (.zpx zp8)) s

/-- `SBC a` (rule R122). -/
def execSbcAbs (addr : Addr) (s : State) : Result := sbc (.mem (.abs addr)) s

/-- `SBC a,X` (rule R122). -/
def execSbcAbsx (addr : Addr) (s : State) : Result := sbc (.mem (.absx addr)) s

/-- `SBC a,Y` (rule R122). -/
def execSbcAbsy (addr : Addr) (s : State) : Result := sbc (.mem (.absy addr)) s

/-- `SBC (z,X)` (rule R122). -/
def execSbcIndx (zp8 : Byte) (s : State) : Result := sbc (.mem (.indx zp8)) s

/-- `SBC (z),Y` (rule R122). -/
def execSbcIndy (zp8 : Byte) (s : State) : Result := sbc (.mem (.indy zp8)) s

/-! ### Compare -/

/-- `CMP #v` (rule R125). -/
def execCmpImm (imm8 : Byte) (s : State) : Result := .next (compare .A (.imm imm8) s)

/-- `CMP z` (rule R125). -/
def execCmpZp (zp8 : Byte) (s : State) : Result := .next (compare .A (.mem (.zp zp8)) s)

/-- `CMP z,X` (rule R125). -/
def execCmpZpx (zp8 : Byte) (s : State) : Result := .next (compare .A (.mem (.zpx zp8)) s)

/-- `CMP a` (rule R125). -/
def execCmpAbs (addr : Addr) (s : State) : Result := .next (compare .A (.mem (.abs addr)) s)

/-- `CMP a,X` (rule R125). -/
def execCmpAbsx (addr : Addr) (s : State) : Result := .next (compare .A (.mem (.absx addr)) s)

/-- `CMP a,Y` (rule R125). -/
def execCmpAbsy (addr : Addr) (s : State) : Result := .next (compare .A (.mem (.absy addr)) s)

/-- `CMP (z,X)` (rule R125). -/
def execCmpIndx (zp8 : Byte) (s : State) : Result := .next (compare .A (.mem (.indx zp8)) s)

/-- `CMP (z),Y` (rule R125). -/
def execCmpIndy (zp8 : Byte) (s : State) : Result := .next (compare .A (.mem (.indy zp8)) s)

/-- `CPX #v` (rule R126). -/
def execCpxImm (imm8 : Byte) (s : State) : Result := .next (compare .X (.imm imm8) s)

/-- `CPX z` (rule R126). -/
def execCpxZp (zp8 : Byte) (s : State) : Result := .next (compare .X (.mem (.zp zp8)) s)

/-- `CPX a` (rule R126). -/
def execCpxAbs (addr : Addr) (s : State) : Result := .next (compare .X (.mem (.abs addr)) s)

/-- `CPY #v` (rule R127). -/
def execCpyImm (imm8 : Byte) (s : State) : Result := .next (compare .Y (.imm imm8) s)

/-- `CPY z` (rule R127). -/
def execCpyZp (zp8 : Byte) (s : State) : Result := .next (compare .Y (.mem (.zp zp8)) s)

/-- `CPY a` (rule R127). -/
def execCpyAbs (addr : Addr) (s : State) : Result := .next (compare .Y (.mem (.abs addr)) s)

/-! ### Logic and BIT -/

/-- `AND #v` (rule R128). -/
def execAndImm (imm8 : Byte) (s : State) : Result := .next (logic (· &&& ·) (.imm imm8) s)

/-- `AND z` (rule R128). -/
def execAndZp (zp8 : Byte) (s : State) : Result := .next (logic (· &&& ·) (.mem (.zp zp8)) s)

/-- `AND z,X` (rule R128). -/
def execAndZpx (zp8 : Byte) (s : State) : Result := .next (logic (· &&& ·) (.mem (.zpx zp8)) s)

/-- `AND a` (rule R128). -/
def execAndAbs (addr : Addr) (s : State) : Result := .next (logic (· &&& ·) (.mem (.abs addr)) s)

/-- `AND a,X` (rule R128). -/
def execAndAbsx (addr : Addr) (s : State) : Result := .next (logic (· &&& ·) (.mem (.absx addr)) s)

/-- `AND a,Y` (rule R128). -/
def execAndAbsy (addr : Addr) (s : State) : Result := .next (logic (· &&& ·) (.mem (.absy addr)) s)

/-- `AND (z,X)` (rule R128). -/
def execAndIndx (zp8 : Byte) (s : State) : Result := .next (logic (· &&& ·) (.mem (.indx zp8)) s)

/-- `AND (z),Y` (rule R128). -/
def execAndIndy (zp8 : Byte) (s : State) : Result := .next (logic (· &&& ·) (.mem (.indy zp8)) s)

/-- `ORA #v` (rule R129). -/
def execOraImm (imm8 : Byte) (s : State) : Result := .next (logic (· ||| ·) (.imm imm8) s)

/-- `ORA z` (rule R129). -/
def execOraZp (zp8 : Byte) (s : State) : Result := .next (logic (· ||| ·) (.mem (.zp zp8)) s)

/-- `ORA z,X` (rule R129). -/
def execOraZpx (zp8 : Byte) (s : State) : Result := .next (logic (· ||| ·) (.mem (.zpx zp8)) s)

/-- `ORA a` (rule R129). -/
def execOraAbs (addr : Addr) (s : State) : Result := .next (logic (· ||| ·) (.mem (.abs addr)) s)

/-- `ORA a,X` (rule R129). -/
def execOraAbsx (addr : Addr) (s : State) : Result := .next (logic (· ||| ·) (.mem (.absx addr)) s)

/-- `ORA a,Y` (rule R129). -/
def execOraAbsy (addr : Addr) (s : State) : Result := .next (logic (· ||| ·) (.mem (.absy addr)) s)

/-- `ORA (z,X)` (rule R129). -/
def execOraIndx (zp8 : Byte) (s : State) : Result := .next (logic (· ||| ·) (.mem (.indx zp8)) s)

/-- `ORA (z),Y` (rule R129). -/
def execOraIndy (zp8 : Byte) (s : State) : Result := .next (logic (· ||| ·) (.mem (.indy zp8)) s)

/-- `EOR #v` (rule R130). -/
def execEorImm (imm8 : Byte) (s : State) : Result := .next (logic (· ^^^ ·) (.imm imm8) s)

/-- `EOR z` (rule R130). -/
def execEorZp (zp8 : Byte) (s : State) : Result := .next (logic (· ^^^ ·) (.mem (.zp zp8)) s)

/-- `EOR z,X` (rule R130). -/
def execEorZpx (zp8 : Byte) (s : State) : Result := .next (logic (· ^^^ ·) (.mem (.zpx zp8)) s)

/-- `EOR a` (rule R130). -/
def execEorAbs (addr : Addr) (s : State) : Result := .next (logic (· ^^^ ·) (.mem (.abs addr)) s)

/-- `EOR a,X` (rule R130). -/
def execEorAbsx (addr : Addr) (s : State) : Result := .next (logic (· ^^^ ·) (.mem (.absx addr)) s)

/-- `EOR a,Y` (rule R130). -/
def execEorAbsy (addr : Addr) (s : State) : Result := .next (logic (· ^^^ ·) (.mem (.absy addr)) s)

/-- `EOR (z,X)` (rule R130). -/
def execEorIndx (zp8 : Byte) (s : State) : Result := .next (logic (· ^^^ ·) (.mem (.indx zp8)) s)

/-- `EOR (z),Y` (rule R130). -/
def execEorIndy (zp8 : Byte) (s : State) : Result := .next (logic (· ^^^ ·) (.mem (.indy zp8)) s)

/-- `BIT z` (rule R131). -/
def execBitZp (zp8 : Byte) (s : State) : Result := .next (bitTest (.mem (.zp zp8)) s)

/-- `BIT a` (rule R131). -/
def execBitAbs (addr : Addr) (s : State) : Result := .next (bitTest (.mem (.abs addr)) s)

end Sys2Proof.Machine
end

