-- ==== Sys2Proof/Machine/FlagsNop.lean ====
section
/-!
DEFINITION. Flag instructions and NOP (45_flags_nop.md): CLC, SEC, CLI, SEI, CLV, CLD, SED are the codec's set_flag on one bit and one
extra cycle; NOP is the extra cycle alone.
-/

namespace Sys2Proof.Machine

/-- `CLC` (rule R220). -/
def execClc (s : State) : Result := .next ((s.setFlag .C false).tick 1)

/-- `SEC` (rule R221). -/
def execSec (s : State) : Result := .next ((s.setFlag .C true).tick 1)

/-- `CLI` (rule R222). -/
def execCli (s : State) : Result := .next ((s.setFlag .I false).tick 1)

/-- `SEI` (rule R223). -/
def execSei (s : State) : Result := .next ((s.setFlag .I true).tick 1)

/-- `CLV` (rule R224). -/
def execClv (s : State) : Result := .next ((s.setFlag .V false).tick 1)

/-- `CLD` (rule R225). -/
def execCld (s : State) : Result := .next ((s.setFlag .D false).tick 1)

/-- `SED` (rule R226). -/
def execSed (s : State) : Result := .next ((s.setFlag .D true).tick 1)

/-- `NOP` (rule R227). -/
def execNop (s : State) : Result := .next (s.tick 1)

end Sys2Proof.Machine
end

