-- ==== Sys2Proof/Machine/LoadStore.lean ====
section
/-!
DEFINITION. Loads, stores, transfers, increment and decrement (42_load_store_transfer_incdec.md): LDA, LDX, LDY, STA, STX, STY, TAX,
TAY, TXA, TYA, INC, DEC, INX, INY, DEX, DEY. A shared operation for each shape, and one meaning per opcode byte.
-/

namespace Sys2Proof.Machine

/-- A load into a register, Z and N from the byte loaded (rules R140 to R142). -/
def load (reg : Reg) (src : Source) (s : State) : State :=
  let (m, s1) := readOperand src s
  (s1.setReg reg m).setZN m

/-- A store of a register, no flag written (rules R143 to R145). -/
def store (reg : Reg) (m : MemOperand) (s : State) : State := writeResult m (s.reg reg) s

/-- A new value for a register, Z and N from it, one extra cycle (rules R146 to R149, R152 to R155). -/
def putReg (reg : Reg) (v : Byte) (s : State) : State := ((s.setReg reg v).setZN v).tick 1

/-! ### Loads -/

/-- `LDA #v` (rule R140). -/
def execLdaImm (imm8 : Byte) (s : State) : Result := .next (load .A (.imm imm8) s)

/-- `LDA z` (rule R140). -/
def execLdaZp (zp8 : Byte) (s : State) : Result := .next (load .A (.mem (.zp zp8)) s)

/-- `LDA z,X` (rule R140). -/
def execLdaZpx (zp8 : Byte) (s : State) : Result := .next (load .A (.mem (.zpx zp8)) s)

/-- `LDA a` (rule R140). -/
def execLdaAbs (addr : Addr) (s : State) : Result := .next (load .A (.mem (.abs addr)) s)

/-- `LDA a,X` (rule R140). -/
def execLdaAbsx (addr : Addr) (s : State) : Result := .next (load .A (.mem (.absx addr)) s)

/-- `LDA a,Y` (rule R140). -/
def execLdaAbsy (addr : Addr) (s : State) : Result := .next (load .A (.mem (.absy addr)) s)

/-- `LDA (z,X)` (rule R140). -/
def execLdaIndx (zp8 : Byte) (s : State) : Result := .next (load .A (.mem (.indx zp8)) s)

/-- `LDA (z),Y` (rule R140). -/
def execLdaIndy (zp8 : Byte) (s : State) : Result := .next (load .A (.mem (.indy zp8)) s)

/-- `LDX #v` (rule R141). -/
def execLdxImm (imm8 : Byte) (s : State) : Result := .next (load .X (.imm imm8) s)

/-- `LDX z` (rule R141). -/
def execLdxZp (zp8 : Byte) (s : State) : Result := .next (load .X (.mem (.zp zp8)) s)

/-- `LDX z,Y` (rule R141). -/
def execLdxZpy (zp8 : Byte) (s : State) : Result := .next (load .X (.mem (.zpy zp8)) s)

/-- `LDX a` (rule R141). -/
def execLdxAbs (addr : Addr) (s : State) : Result := .next (load .X (.mem (.abs addr)) s)

/-- `LDX a,Y` (rule R141). -/
def execLdxAbsy (addr : Addr) (s : State) : Result := .next (load .X (.mem (.absy addr)) s)

/-- `LDY #v` (rule R142). -/
def execLdyImm (imm8 : Byte) (s : State) : Result := .next (load .Y (.imm imm8) s)

/-- `LDY z` (rule R142). -/
def execLdyZp (zp8 : Byte) (s : State) : Result := .next (load .Y (.mem (.zp zp8)) s)

/-- `LDY z,X` (rule R142). -/
def execLdyZpx (zp8 : Byte) (s : State) : Result := .next (load .Y (.mem (.zpx zp8)) s)

/-- `LDY a` (rule R142). -/
def execLdyAbs (addr : Addr) (s : State) : Result := .next (load .Y (.mem (.abs addr)) s)

/-- `LDY a,X` (rule R142). -/
def execLdyAbsx (addr : Addr) (s : State) : Result := .next (load .Y (.mem (.absx addr)) s)

/-! ### Stores -/

/-- `STA z` (rule R143). -/
def execStaZp (zp8 : Byte) (s : State) : Result := .next (store .A (.zp zp8) s)

/-- `STA z,X` (rule R143). -/
def execStaZpx (zp8 : Byte) (s : State) : Result := .next (store .A (.zpx zp8) s)

/-- `STA a` (rule R143). -/
def execStaAbs (addr : Addr) (s : State) : Result := .next (store .A (.abs addr) s)

/-- `STA a,X` (rule R143). -/
def execStaAbsx (addr : Addr) (s : State) : Result := .next (store .A (.absx addr) s)

/-- `STA a,Y` (rule R143). -/
def execStaAbsy (addr : Addr) (s : State) : Result := .next (store .A (.absy addr) s)

/-- `STA (z,X)` (rule R143). -/
def execStaIndx (zp8 : Byte) (s : State) : Result := .next (store .A (.indx zp8) s)

/-- `STA (z),Y` (rule R143). -/
def execStaIndy (zp8 : Byte) (s : State) : Result := .next (store .A (.indy zp8) s)

/-- `STX z` (rule R144). -/
def execStxZp (zp8 : Byte) (s : State) : Result := .next (store .X (.zp zp8) s)

/-- `STX z,Y` (rule R144). -/
def execStxZpy (zp8 : Byte) (s : State) : Result := .next (store .X (.zpy zp8) s)

/-- `STX a` (rule R144). -/
def execStxAbs (addr : Addr) (s : State) : Result := .next (store .X (.abs addr) s)

/-- `STY z` (rule R145). -/
def execStyZp (zp8 : Byte) (s : State) : Result := .next (store .Y (.zp zp8) s)

/-- `STY z,X` (rule R145). -/
def execStyZpx (zp8 : Byte) (s : State) : Result := .next (store .Y (.zpx zp8) s)

/-- `STY a` (rule R145). -/
def execStyAbs (addr : Addr) (s : State) : Result := .next (store .Y (.abs addr) s)

/-! ### Register transfers -/

/-- `TAX` (rule R146). -/
def execTax (s : State) : Result := .next (putReg .X s.a s)

/-- `TAY` (rule R147). -/
def execTay (s : State) : Result := .next (putReg .Y s.a s)

/-- `TXA` (rule R148). -/
def execTxa (s : State) : Result := .next (putReg .A s.x s)

/-- `TYA` (rule R149). -/
def execTya (s : State) : Result := .next (putReg .A s.y s)

/-! ### Increment and decrement -/

/-- `INC z` (rule R150). -/
def execIncZp (zp8 : Byte) (s : State) : Result := .next (modify incFn (.zp zp8) s)

/-- `INC z,X` (rule R150). -/
def execIncZpx (zp8 : Byte) (s : State) : Result := .next (modify incFn (.zpx zp8) s)

/-- `INC a` (rule R150). -/
def execIncAbs (addr : Addr) (s : State) : Result := .next (modify incFn (.abs addr) s)

/-- `INC a,X` (rule R150). -/
def execIncAbsx (addr : Addr) (s : State) : Result := .next (modify incFn (.absx addr) s)

/-- `DEC z` (rule R151). -/
def execDecZp (zp8 : Byte) (s : State) : Result := .next (modify decFn (.zp zp8) s)

/-- `DEC z,X` (rule R151). -/
def execDecZpx (zp8 : Byte) (s : State) : Result := .next (modify decFn (.zpx zp8) s)

/-- `DEC a` (rule R151). -/
def execDecAbs (addr : Addr) (s : State) : Result := .next (modify decFn (.abs addr) s)

/-- `DEC a,X` (rule R151). -/
def execDecAbsx (addr : Addr) (s : State) : Result := .next (modify decFn (.absx addr) s)

/-- `INX` (rule R152). -/
def execInx (s : State) : Result := .next (putReg .X (s.x + 1) s)

/-- `INY` (rule R153). -/
def execIny (s : State) : Result := .next (putReg .Y (s.y + 1) s)

/-- `DEX` (rule R154). -/
def execDex (s : State) : Result := .next (putReg .X (s.x - 1) s)

/-- `DEY` (rule R155). -/
def execDey (s : State) : Result := .next (putReg .Y (s.y - 1) s)

end Sys2Proof.Machine
end

