-- ==== Sys2Proof/Machine/ShiftBranch.lean ====
section
/-!
DEFINITION. Shifts, rotates and branches (43_shift_rotate_branch.md): ASL, LSR, ROL, ROR, and BPL, BMI, BVC, BVS, BCC, BCS, BNE, BEQ.
The shifts are `modify` and `operateAcc` on the functions of Machine/Flags.lean; the branches share `branch`.
-/

namespace Sys2Proof.Machine

/-- `Branch(cond)` (rule R174); `PC` already holds the address of the next instruction. -/
def branch (cond : Bool) (rel8 : Byte) (s : State) : State :=
  if cond then
    let target := s.pc + sext8 rel8
    let s1 := (s.setPc target).tick 1
    if crossesPage s.pc target then s1.tick 1 else s1
  else s

/-! ### Shifts and rotates -/

/-- `ASL A` (rule R170). -/
def execAslAcc (s : State) : Result := .next (operateAcc aslFn s)

/-- `ASL z` (rule R170). -/
def execAslZp (zp8 : Byte) (s : State) : Result := .next (modify aslFn (.zp zp8) s)

/-- `ASL z,X` (rule R170). -/
def execAslZpx (zp8 : Byte) (s : State) : Result := .next (modify aslFn (.zpx zp8) s)

/-- `ASL a` (rule R170). -/
def execAslAbs (addr : Addr) (s : State) : Result := .next (modify aslFn (.abs addr) s)

/-- `ASL a,X` (rule R170). -/
def execAslAbsx (addr : Addr) (s : State) : Result := .next (modify aslFn (.absx addr) s)

/-- `LSR A` (rule R171). -/
def execLsrAcc (s : State) : Result := .next (operateAcc lsrFn s)

/-- `LSR z` (rule R171). -/
def execLsrZp (zp8 : Byte) (s : State) : Result := .next (modify lsrFn (.zp zp8) s)

/-- `LSR z,X` (rule R171). -/
def execLsrZpx (zp8 : Byte) (s : State) : Result := .next (modify lsrFn (.zpx zp8) s)

/-- `LSR a` (rule R171). -/
def execLsrAbs (addr : Addr) (s : State) : Result := .next (modify lsrFn (.abs addr) s)

/-- `LSR a,X` (rule R171). -/
def execLsrAbsx (addr : Addr) (s : State) : Result := .next (modify lsrFn (.absx addr) s)

/-- `ROL A` (rule R172). -/
def execRolAcc (s : State) : Result := .next (operateAcc rolFn s)

/-- `ROL z` (rule R172). -/
def execRolZp (zp8 : Byte) (s : State) : Result := .next (modify rolFn (.zp zp8) s)

/-- `ROL z,X` (rule R172). -/
def execRolZpx (zp8 : Byte) (s : State) : Result := .next (modify rolFn (.zpx zp8) s)

/-- `ROL a` (rule R172). -/
def execRolAbs (addr : Addr) (s : State) : Result := .next (modify rolFn (.abs addr) s)

/-- `ROL a,X` (rule R172). -/
def execRolAbsx (addr : Addr) (s : State) : Result := .next (modify rolFn (.absx addr) s)

/-- `ROR A` (rule R173). -/
def execRorAcc (s : State) : Result := .next (operateAcc rorFn s)

/-- `ROR z` (rule R173). -/
def execRorZp (zp8 : Byte) (s : State) : Result := .next (modify rorFn (.zp zp8) s)

/-- `ROR z,X` (rule R173). -/
def execRorZpx (zp8 : Byte) (s : State) : Result := .next (modify rorFn (.zpx zp8) s)

/-- `ROR a` (rule R173). -/
def execRorAbs (addr : Addr) (s : State) : Result := .next (modify rorFn (.abs addr) s)

/-- `ROR a,X` (rule R173). -/
def execRorAbsx (addr : Addr) (s : State) : Result := .next (modify rorFn (.absx addr) s)

/-! ### Branches -/

/-- `BPL rel8` (rule R175). -/
def execBpl (rel8 : Byte) (s : State) : Result := .next (branch (!s.flag .N) rel8 s)

/-- `BMI rel8` (rule R176). -/
def execBmi (rel8 : Byte) (s : State) : Result := .next (branch (s.flag .N) rel8 s)

/-- `BVC rel8` (rule R177). -/
def execBvc (rel8 : Byte) (s : State) : Result := .next (branch (!s.flag .V) rel8 s)

/-- `BVS rel8` (rule R178). -/
def execBvs (rel8 : Byte) (s : State) : Result := .next (branch (s.flag .V) rel8 s)

/-- `BCC rel8` (rule R179). -/
def execBcc (rel8 : Byte) (s : State) : Result := .next (branch (!s.flag .C) rel8 s)

/-- `BCS rel8` (rule R180). -/
def execBcs (rel8 : Byte) (s : State) : Result := .next (branch (s.flag .C) rel8 s)

/-- `BNE rel8` (rule R181). -/
def execBne (rel8 : Byte) (s : State) : Result := .next (branch (!s.flag .Z) rel8 s)

/-- `BEQ rel8` (rule R182). -/
def execBeq (rel8 : Byte) (s : State) : Result := .next (branch (s.flag .Z) rel8 s)

end Sys2Proof.Machine
end

