-- ==== Sys2Proof/Machine/StackJump.lean ====
section
/-!
DEFINITION. Stack unit, jumps, subroutines and interrupt entry and exit (44_stack_jump_interrupt.md): TSX, TXS, PHA, PHP, PLA, PLP, JMP,
JSR, RTS, BRK, RTI, over the stack unit and the interrupt operations of Machine/Ops.lean.
-/

namespace Sys2Proof.Machine

/-- TSX (rule R194). -/
def execTsx (s : State) : Result := .next (((s.setX s.sp).setZN s.sp).tick 1)

/-- TXS: no flag (rule R195). -/
def execTxs (s : State) : Result := .next ((s.setSp s.x).tick 1)

/-- PHA (rule R196). -/
def execPha (s : State) : Result := .next ((push8 s.a s).tick 1)

/-- PHP: the live status keeps its bits 4 and 5 (rule R197). -/
def execPhp (s : State) : Result := .next ((push8 (pushedStatus s.p) s).tick 1)

/-- PLA after its pop (rule R198). -/
def pla (s : State) : State :=
  let (v, s1) := pop8 s
  ((s1.setA v).setZN v).tick 2

/-- PLA (rule R198). -/
def execPla (s : State) : Result := .next (pla s)

/-- PLP after its pop (rule R199). -/
def plp (s : State) : State :=
  let (v, s1) := pop8 s
  (s1.setP (pulledStatus v s1.p)).tick 2

/-- PLP (rule R199). -/
def execPlp (s : State) : Result := .next (plp s)

/-- `JMP a` (rule R200). -/
def execJmpAbs (addr : Addr) (s : State) : Result := .next (s.setPc addr)

/-- `JMP (a)` after its two pointer reads (rule R201). -/
def jmpIndirect (ptr : Addr) (s : State) : State :=
  let (target, s1) := readJmpTarget ptr s
  s1.setPc target

/-- `JMP (a)` (rule R201). -/
def execJmpInd (ptr : Addr) (s : State) : Result := .next (jmpIndirect ptr s)

/-- `JSR a`: the address of its own last byte is pushed; `PC` already holds the next instruction's (rule R202). -/
def execJsr (addr : Addr) (s : State) : Result := .next (((push16 (s.pc - 1) s).setPc addr).tick 1)

/-- RTS after its two pops (rule R203). -/
def rts (s : State) : State :=
  let (w, s1) := pop16 s
  (s1.setPc (w + 1)).tick 3

/-- RTS (rule R203). -/
def execRts (s : State) : Result := .next (rts s)

/-- BRK: `PC` already holds BRK's address + 1, so the return address is BRK's address + 2 (rule R204). -/
def execBrk (s : State) : Result := .next (enterInterrupt (s.pc + 1) s)

/-- RTI (rule R205). -/
def execRti (s : State) : Result := .next (returnFromInterrupt s)

end Sys2Proof.Machine
end

