-- ==== Sys2Proof/WellFormed.lean ====
section
/-!
DEFINITION. Which (mnemonic, mode) pairs exist, from the "Encoding" item of each instruction rule (R121 to R227) and
independent of the opcode map in Decode.lean: there is no `STA #`, no `LDX abs,X`, no `BIT #`, no `JMP (zp)`
(91_not_in_source.md N2). The types of `Instr` already bound every operand byte, and every value of every operand byte
is legal (30_encoding.md rule R84), so the pair is all there is to check.
-/

namespace Sys2Proof

/-- The modes each mnemonic has, as the instruction rules of 41_arith_logic.md to 45_flags_nop.md list them. -/
def Mnemonic.modes : Mnemonic → List Mode
  | .ADC | .SBC | .CMP | .AND | .ORA | .EOR | .LDA => [.imm, .zp, .zpx, .abs, .absx, .absy, .indx, .indy]
  | .CPX | .CPY => [.imm, .zp, .abs]
  | .BIT => [.zp, .abs]
  | .LDX => [.imm, .zp, .zpy, .abs, .absy]
  | .LDY => [.imm, .zp, .zpx, .abs, .absx]
  | .STA => [.zp, .zpx, .abs, .absx, .absy, .indx, .indy]
  | .STX => [.zp, .zpy, .abs]
  | .STY => [.zp, .zpx, .abs]
  | .TAX | .TAY | .TXA | .TYA | .INX | .INY | .DEX | .DEY | .TSX | .TXS | .PHA | .PHP => [.imp]
  | .PLA | .PLP | .RTS | .BRK | .RTI | .CLC | .SEC | .CLI | .SEI | .CLV | .CLD | .SED => [.imp]
  | .NOP => [.imp]
  | .INC | .DEC => [.zp, .zpx, .abs, .absx]
  | .ASL | .LSR | .ROL | .ROR => [.acc, .zp, .zpx, .abs, .absx]
  | .BPL | .BMI | .BVC | .BVS | .BCC | .BCS | .BNE | .BEQ => [.rel]
  | .JMP => [.abs, .ind]
  | .JSR => [.abs]

/-- A (mnemonic, mode) pair is an instruction form. -/
def formExists (m : Mnemonic) (mode : Mode) : Bool := m.modes.contains mode

/-- An instruction is well formed when its mnemonic has its mode. Every constructor is (Laws/PerInstr.lean). -/
def Instr.wf (i : Instr) : Bool := formExists i.mnemonic i.mode

end Sys2Proof
end

