-- ==== Sys2Proof/Decode.lean ====
section
/-!
DEFINITION. From bytes to instructions and back (30_encoding.md). The dispatch table of rule R83 as sixteen rows, one
for each high nibble of the opcode byte, as in the rule's 16 by 16 map; the decoder looks the opcode byte up, learns the
length, and assembles the operand bytes (R82, R85). The encoder below it is written from the same rule's table the other
way round.
-/

namespace Sys2Proof

/-- How many operand bytes follow an opcode byte, and the instruction they make (30_encoding.md rules R81, R82). -/
inductive OpcodeRow where
  | none1 (i : Instr)
  | byte2 (make : Byte → Instr)
  | word3 (make : Addr → Instr)

/-- Opcode bytes 0x00 to 0x0F of 30_encoding.md rule R83. -/
def opcodes0 : List (Nat × OpcodeRow) :=
  [(0x00, .none1 .brk), (0x01, .byte2 .oraIndx), (0x05, .byte2 .oraZp), (0x06, .byte2 .aslZp), (0x08, .none1 .php),
   (0x09, .byte2 .oraImm), (0x0A, .none1 .aslAcc), (0x0D, .word3 .oraAbs), (0x0E, .word3 .aslAbs)]

/-- Opcode bytes 0x10 to 0x1F of 30_encoding.md rule R83. -/
def opcodes1 : List (Nat × OpcodeRow) :=
  [(0x10, .byte2 .bpl), (0x11, .byte2 .oraIndy), (0x15, .byte2 .oraZpx), (0x16, .byte2 .aslZpx),
   (0x18, .none1 .clc), (0x19, .word3 .oraAbsy), (0x1D, .word3 .oraAbsx), (0x1E, .word3 .aslAbsx)]

/-- Opcode bytes 0x20 to 0x2F of 30_encoding.md rule R83. -/
def opcodes2 : List (Nat × OpcodeRow) :=
  [(0x20, .word3 .jsr), (0x21, .byte2 .andIndx), (0x24, .byte2 .bitZp), (0x25, .byte2 .andZp),
   (0x26, .byte2 .rolZp), (0x28, .none1 .plp), (0x29, .byte2 .andImm), (0x2A, .none1 .rolAcc),
   (0x2C, .word3 .bitAbs), (0x2D, .word3 .andAbs), (0x2E, .word3 .rolAbs)]

/-- Opcode bytes 0x30 to 0x3F of 30_encoding.md rule R83. -/
def opcodes3 : List (Nat × OpcodeRow) :=
  [(0x30, .byte2 .bmi), (0x31, .byte2 .andIndy), (0x35, .byte2 .andZpx), (0x36, .byte2 .rolZpx),
   (0x38, .none1 .sec), (0x39, .word3 .andAbsy), (0x3D, .word3 .andAbsx), (0x3E, .word3 .rolAbsx)]

/-- Opcode bytes 0x40 to 0x4F of 30_encoding.md rule R83. -/
def opcodes4 : List (Nat × OpcodeRow) :=
  [(0x40, .none1 .rti), (0x41, .byte2 .eorIndx), (0x45, .byte2 .eorZp), (0x46, .byte2 .lsrZp), (0x48, .none1 .pha),
   (0x49, .byte2 .eorImm), (0x4A, .none1 .lsrAcc), (0x4C, .word3 .jmpAbs), (0x4D, .word3 .eorAbs),
   (0x4E, .word3 .lsrAbs)]

/-- Opcode bytes 0x50 to 0x5F of 30_encoding.md rule R83. -/
def opcodes5 : List (Nat × OpcodeRow) :=
  [(0x50, .byte2 .bvc), (0x51, .byte2 .eorIndy), (0x55, .byte2 .eorZpx), (0x56, .byte2 .lsrZpx),
   (0x58, .none1 .cli), (0x59, .word3 .eorAbsy), (0x5D, .word3 .eorAbsx), (0x5E, .word3 .lsrAbsx)]

/-- Opcode bytes 0x60 to 0x6F of 30_encoding.md rule R83. -/
def opcodes6 : List (Nat × OpcodeRow) :=
  [(0x60, .none1 .rts), (0x61, .byte2 .adcIndx), (0x65, .byte2 .adcZp), (0x66, .byte2 .rorZp), (0x68, .none1 .pla),
   (0x69, .byte2 .adcImm), (0x6A, .none1 .rorAcc), (0x6C, .word3 .jmpInd), (0x6D, .word3 .adcAbs),
   (0x6E, .word3 .rorAbs)]

/-- Opcode bytes 0x70 to 0x7F of 30_encoding.md rule R83. -/
def opcodes7 : List (Nat × OpcodeRow) :=
  [(0x70, .byte2 .bvs), (0x71, .byte2 .adcIndy), (0x75, .byte2 .adcZpx), (0x76, .byte2 .rorZpx),
   (0x78, .none1 .sei), (0x79, .word3 .adcAbsy), (0x7D, .word3 .adcAbsx), (0x7E, .word3 .rorAbsx)]

/-- Opcode bytes 0x80 to 0x8F of 30_encoding.md rule R83. -/
def opcodes8 : List (Nat × OpcodeRow) :=
  [(0x81, .byte2 .staIndx), (0x84, .byte2 .styZp), (0x85, .byte2 .staZp), (0x86, .byte2 .stxZp),
   (0x88, .none1 .dey), (0x8A, .none1 .txa), (0x8C, .word3 .styAbs), (0x8D, .word3 .staAbs), (0x8E, .word3 .stxAbs)]

/-- Opcode bytes 0x90 to 0x9F of 30_encoding.md rule R83. -/
def opcodes9 : List (Nat × OpcodeRow) :=
  [(0x90, .byte2 .bcc), (0x91, .byte2 .staIndy), (0x94, .byte2 .styZpx), (0x95, .byte2 .staZpx),
   (0x96, .byte2 .stxZpy), (0x98, .none1 .tya), (0x99, .word3 .staAbsy), (0x9A, .none1 .txs),
   (0x9D, .word3 .staAbsx)]

/-- Opcode bytes 0xA0 to 0xAF of 30_encoding.md rule R83. -/
def opcodesA : List (Nat × OpcodeRow) :=
  [(0xA0, .byte2 .ldyImm), (0xA1, .byte2 .ldaIndx), (0xA2, .byte2 .ldxImm), (0xA4, .byte2 .ldyZp),
   (0xA5, .byte2 .ldaZp), (0xA6, .byte2 .ldxZp), (0xA8, .none1 .tay), (0xA9, .byte2 .ldaImm), (0xAA, .none1 .tax),
   (0xAC, .word3 .ldyAbs), (0xAD, .word3 .ldaAbs), (0xAE, .word3 .ldxAbs)]

/-- Opcode bytes 0xB0 to 0xBF of 30_encoding.md rule R83. -/
def opcodesB : List (Nat × OpcodeRow) :=
  [(0xB0, .byte2 .bcs), (0xB1, .byte2 .ldaIndy), (0xB4, .byte2 .ldyZpx), (0xB5, .byte2 .ldaZpx),
   (0xB6, .byte2 .ldxZpy), (0xB8, .none1 .clv), (0xB9, .word3 .ldaAbsy), (0xBA, .none1 .tsx),
   (0xBC, .word3 .ldyAbsx), (0xBD, .word3 .ldaAbsx), (0xBE, .word3 .ldxAbsy)]

/-- Opcode bytes 0xC0 to 0xCF of 30_encoding.md rule R83. -/
def opcodesC : List (Nat × OpcodeRow) :=
  [(0xC0, .byte2 .cpyImm), (0xC1, .byte2 .cmpIndx), (0xC4, .byte2 .cpyZp), (0xC5, .byte2 .cmpZp),
   (0xC6, .byte2 .decZp), (0xC8, .none1 .iny), (0xC9, .byte2 .cmpImm), (0xCA, .none1 .dex), (0xCC, .word3 .cpyAbs),
   (0xCD, .word3 .cmpAbs), (0xCE, .word3 .decAbs)]

/-- Opcode bytes 0xD0 to 0xDF of 30_encoding.md rule R83. -/
def opcodesD : List (Nat × OpcodeRow) :=
  [(0xD0, .byte2 .bne), (0xD1, .byte2 .cmpIndy), (0xD5, .byte2 .cmpZpx), (0xD6, .byte2 .decZpx),
   (0xD8, .none1 .cld), (0xD9, .word3 .cmpAbsy), (0xDD, .word3 .cmpAbsx), (0xDE, .word3 .decAbsx)]

/-- Opcode bytes 0xE0 to 0xEF of 30_encoding.md rule R83. -/
def opcodesE : List (Nat × OpcodeRow) :=
  [(0xE0, .byte2 .cpxImm), (0xE1, .byte2 .sbcIndx), (0xE4, .byte2 .cpxZp), (0xE5, .byte2 .sbcZp),
   (0xE6, .byte2 .incZp), (0xE8, .none1 .inx), (0xE9, .byte2 .sbcImm), (0xEA, .none1 .nop), (0xEC, .word3 .cpxAbs),
   (0xED, .word3 .sbcAbs), (0xEE, .word3 .incAbs)]

/-- Opcode bytes 0xF0 to 0xFF of 30_encoding.md rule R83. -/
def opcodesF : List (Nat × OpcodeRow) :=
  [(0xF0, .byte2 .beq), (0xF1, .byte2 .sbcIndy), (0xF5, .byte2 .sbcZpx), (0xF6, .byte2 .incZpx),
   (0xF8, .none1 .sed), (0xF9, .word3 .sbcAbsy), (0xFD, .word3 .sbcAbsx), (0xFE, .word3 .incAbsx)]

/-- The dispatch table (30_encoding.md rule R83), 151 opcode bytes, by the high nibble of the opcode byte. -/
def opcodeTable : Nat → List (Nat × OpcodeRow)
  | 0 => opcodes0
  | 1 => opcodes1
  | 2 => opcodes2
  | 3 => opcodes3
  | 4 => opcodes4
  | 5 => opcodes5
  | 6 => opcodes6
  | 7 => opcodes7
  | 8 => opcodes8
  | 9 => opcodes9
  | 10 => opcodesA
  | 11 => opcodesB
  | 12 => opcodesC
  | 13 => opcodesD
  | 14 => opcodesE
  | 15 => opcodesF
  | _ => []

/-- Look a number up in a list of keyed rows. -/
def lookupRow : List (Nat × OpcodeRow) → Nat → Option OpcodeRow
  | [], _ => none
  | (k, row) :: rest, n => if k == n then some row else lookupRow rest n

/-- The row of an opcode byte, or none for the 105 unknown bytes (30_encoding.md rules R83, R84). -/
def dispatchRow (op : Byte) : Option OpcodeRow := lookupRow (opcodeTable (op.toNat / 16)) op.toNat

/-- What the decoder answers: an instruction and the bytes after it, or why there is none. -/
inductive Decoded where
  /-- The instruction at the front of the bytes, and the bytes after it. -/
  | instr (i : Instr) (rest : List Byte)
  /-- The first byte is in no row of the dispatch table (30_encoding.md rule R84). -/
  | unknownOpcode (op : Byte)
  /-- The bytes end before the instruction does. -/
  | truncated
deriving DecidableEq, Repr

/-- The decoder, total on any bytes (30_encoding.md rules R80 to R85). -/
def decode : List Byte → Decoded
  | [] => .truncated
  | op :: rest =>
    match dispatchRow op with
    | none => .unknownOpcode op
    | some (.none1 i) => .instr i rest
    | some (.byte2 make) =>
      match rest with
      | b :: after => .instr (make b) after
      | [] => .truncated
    | some (.word3 make) =>
      match rest with
      | l :: h :: after => .instr (make (word16 h l)) after
      | _ => .truncated

/-- The instruction a decoding holds, if any. -/
def Decoded.instr? : Decoded → Option Instr
  | .instr i _ => some i
  | .unknownOpcode _ => none
  | .truncated => none

/-- The three bytes that a table word of `nbits` bits stands for, the first at the lowest address, the bits above
`nbits` zero (instructions are byte sequences, 30_encoding.md rule R81; three bytes are the longest, R85). -/
def tableWordBytes (nbits w : Nat) : List Byte :=
  let v := w % 2 ^ nbits
  [BitVec.ofNat 8 v, BitVec.ofNat 8 (v / 256), BitVec.ofNat 8 (v / 65536)]

/-- The decoder on a table word, as the host numbers it. -/
def decodeTableWord (nbits w : Nat) : Option Instr := (decode (tableWordBytes nbits w)).instr?

/-- The opcode byte of an instruction: the opcode column of 30_encoding.md rule R83. -/
def opcodeByte : Instr → Byte
  | .adcImm _ => 0x69
  | .adcZp _ => 0x65
  | .adcZpx _ => 0x75
  | .adcAbs _ => 0x6D
  | .adcAbsx _ => 0x7D
  | .adcAbsy _ => 0x79
  | .adcIndx _ => 0x61
  | .adcIndy _ => 0x71
  | .sbcImm _ => 0xE9
  | .sbcZp _ => 0xE5
  | .sbcZpx _ => 0xF5
  | .sbcAbs _ => 0xED
  | .sbcAbsx _ => 0xFD
  | .sbcAbsy _ => 0xF9
  | .sbcIndx _ => 0xE1
  | .sbcIndy _ => 0xF1
  | .cmpImm _ => 0xC9
  | .cmpZp _ => 0xC5
  | .cmpZpx _ => 0xD5
  | .cmpAbs _ => 0xCD
  | .cmpAbsx _ => 0xDD
  | .cmpAbsy _ => 0xD9
  | .cmpIndx _ => 0xC1
  | .cmpIndy _ => 0xD1
  | .cpxImm _ => 0xE0
  | .cpxZp _ => 0xE4
  | .cpxAbs _ => 0xEC
  | .cpyImm _ => 0xC0
  | .cpyZp _ => 0xC4
  | .cpyAbs _ => 0xCC
  | .andImm _ => 0x29
  | .andZp _ => 0x25
  | .andZpx _ => 0x35
  | .andAbs _ => 0x2D
  | .andAbsx _ => 0x3D
  | .andAbsy _ => 0x39
  | .andIndx _ => 0x21
  | .andIndy _ => 0x31
  | .oraImm _ => 0x09
  | .oraZp _ => 0x05
  | .oraZpx _ => 0x15
  | .oraAbs _ => 0x0D
  | .oraAbsx _ => 0x1D
  | .oraAbsy _ => 0x19
  | .oraIndx _ => 0x01
  | .oraIndy _ => 0x11
  | .eorImm _ => 0x49
  | .eorZp _ => 0x45
  | .eorZpx _ => 0x55
  | .eorAbs _ => 0x4D
  | .eorAbsx _ => 0x5D
  | .eorAbsy _ => 0x59
  | .eorIndx _ => 0x41
  | .eorIndy _ => 0x51
  | .bitZp _ => 0x24
  | .bitAbs _ => 0x2C
  | .ldaImm _ => 0xA9
  | .ldaZp _ => 0xA5
  | .ldaZpx _ => 0xB5
  | .ldaAbs _ => 0xAD
  | .ldaAbsx _ => 0xBD
  | .ldaAbsy _ => 0xB9
  | .ldaIndx _ => 0xA1
  | .ldaIndy _ => 0xB1
  | .ldxImm _ => 0xA2
  | .ldxZp _ => 0xA6
  | .ldxZpy _ => 0xB6
  | .ldxAbs _ => 0xAE
  | .ldxAbsy _ => 0xBE
  | .ldyImm _ => 0xA0
  | .ldyZp _ => 0xA4
  | .ldyZpx _ => 0xB4
  | .ldyAbs _ => 0xAC
  | .ldyAbsx _ => 0xBC
  | .staZp _ => 0x85
  | .staZpx _ => 0x95
  | .staAbs _ => 0x8D
  | .staAbsx _ => 0x9D
  | .staAbsy _ => 0x99
  | .staIndx _ => 0x81
  | .staIndy _ => 0x91
  | .stxZp _ => 0x86
  | .stxZpy _ => 0x96
  | .stxAbs _ => 0x8E
  | .styZp _ => 0x84
  | .styZpx _ => 0x94
  | .styAbs _ => 0x8C
  | .tax => 0xAA
  | .tay => 0xA8
  | .txa => 0x8A
  | .tya => 0x98
  | .incZp _ => 0xE6
  | .incZpx _ => 0xF6
  | .incAbs _ => 0xEE
  | .incAbsx _ => 0xFE
  | .decZp _ => 0xC6
  | .decZpx _ => 0xD6
  | .decAbs _ => 0xCE
  | .decAbsx _ => 0xDE
  | .inx => 0xE8
  | .iny => 0xC8
  | .dex => 0xCA
  | .dey => 0x88
  | .aslAcc => 0x0A
  | .aslZp _ => 0x06
  | .aslZpx _ => 0x16
  | .aslAbs _ => 0x0E
  | .aslAbsx _ => 0x1E
  | .lsrAcc => 0x4A
  | .lsrZp _ => 0x46
  | .lsrZpx _ => 0x56
  | .lsrAbs _ => 0x4E
  | .lsrAbsx _ => 0x5E
  | .rolAcc => 0x2A
  | .rolZp _ => 0x26
  | .rolZpx _ => 0x36
  | .rolAbs _ => 0x2E
  | .rolAbsx _ => 0x3E
  | .rorAcc => 0x6A
  | .rorZp _ => 0x66
  | .rorZpx _ => 0x76
  | .rorAbs _ => 0x6E
  | .rorAbsx _ => 0x7E
  | .bpl _ => 0x10
  | .bmi _ => 0x30
  | .bvc _ => 0x50
  | .bvs _ => 0x70
  | .bcc _ => 0x90
  | .bcs _ => 0xB0
  | .bne _ => 0xD0
  | .beq _ => 0xF0
  | .tsx => 0xBA
  | .txs => 0x9A
  | .pha => 0x48
  | .php => 0x08
  | .pla => 0x68
  | .plp => 0x28
  | .jmpAbs _ => 0x4C
  | .jmpInd _ => 0x6C
  | .jsr _ => 0x20
  | .rts => 0x60
  | .brk => 0x00
  | .rti => 0x40
  | .clc => 0x18
  | .sec => 0x38
  | .cli => 0x58
  | .sei => 0x78
  | .clv => 0xB8
  | .cld => 0xD8
  | .sed => 0xF8
  | .nop => 0xEA

/-- The operand byte of a memory operand, or its two bytes, low byte first (30_encoding.md rules R81, R82). -/
def memOperandBytes : MemOperand → List Byte
  | .zp z | .zpx z | .zpy z | .indx z | .indy z => [z]
  | .abs a | .absx a | .absy a => [loByte a, hiByte a]

/-- The bytes after the opcode byte (30_encoding.md rules R81, R82). -/
def operandBytes : Operand → List Byte
  | .imp | .acc => []
  | .imm v => [v]
  | .mem m => memOperandBytes m
  | .ind p => [loByte p, hiByte p]
  | .rel o => [o]

/-- The bytes of an instruction, in the order they lie in memory (30_encoding.md rules R80, R81). -/
def encode (i : Instr) : List Byte := opcodeByte i :: operandBytes i.operand

end Sys2Proof
end

