-- ==== Sys2Proof/Machine/Fetch.lean ====
section
/-!
DEFINITION. Fetching an instruction (46_dispatch_loop.md rules R230 to R232): the opcode byte with `Fetch8`, its row of the
dispatch table, then as many operand bytes as the row has, with `Fetch8` or `Fetch16` (40_addressing.md rule R100). Every
byte costs one cycle and advances `PC` by one, modulo 65536.
-/

namespace Sys2Proof.Machine

/-- What a fetch gives. -/
inductive Fetched where
  /-- An instruction, and the state after its last operand byte. -/
  | instr (i : Instr) (s : State)
  /-- An opcode byte that is in no row of the dispatch table. -/
  | unknown (op : Byte)
deriving DecidableEq, Repr

/-- Fetch and decode the instruction at `PC`. -/
def fetchInstr (s : State) : Fetched :=
  let (op, s1) := fetch8 s
  match dispatchRow op with
  | none => .unknown op
  | some (.none1 i) => .instr i s1
  | some (.byte2 make) =>
    let (b, s2) := fetch8 s1
    .instr (make b) s2
  | some (.word3 make) =>
    let (w, s2) := fetch16 s1
    .instr (make w) s2

/-- The state `Halted(op)` leaves (46_dispatch_loop.md rule R232): the state before the step but for the opcode fetch. -/
def stateAfterHalt (s : State) : State := (fetch8 s).2

/-- The bytes from an address upwards, modulo 65536. -/
def bytesFrom (s : State) : Nat → Addr → List Byte
  | 0, _ => []
  | n + 1, addr => s.byteAt addr :: bytesFrom s n (addr + 1)

/-- The state after the fetch of an instruction of `n` bytes: `PC` moved past them, one cycle for each. -/
def State.pastFetch (n : Nat) (s : State) : State := (s.setPc (s.pc + BitVec.ofNat 16 n)).tick n

/-- Write bytes from an address upwards, modulo 65536. -/
def writeBytes : List Byte → Addr → Memory → Memory
  | [], _, m => m
  | b :: rest, addr, m => writeBytes rest (addr + 1) (m.write addr.toNat b)

end Sys2Proof.Machine
end

