-- ==== Sys2Proof/Machine/Step.lean ====
section
/-!
DEFINITION. One step of the machine: rule R230 followed by rule R231 or rule R232 (46_dispatch_loop.md rule R237), and the
placing of one instruction where the next step fetches.
-/

namespace Sys2Proof.Machine

/-- The step function (46_dispatch_loop.md rule R237): fetch, then run the instruction from the state after its last
operand byte is fetched, or halt on an unknown opcode byte. -/
def step (s : State) : Host.Outcome State Fault Refusal :=
  match fetchInstr s with
  | .instr i s1 => exec i s1
  | .unknown op => .refused (.unknownOpcode op)

/-- `s` with the table word `w` of `nbits` bits in the three bytes from `PC` upwards. -/
def State.withFetchWord (s : State) (nbits w : Nat) : State :=
  s.setMem (writeBytes (tableWordBytes nbits w) s.pc s.mem)

end Sys2Proof.Machine
end

