-- ==== Sys2Proof/Machine/Timing.lean ====
section
/-!
DEFINITION. The cost of an instruction as the spec tabulates it: the cycles column of 30_encoding.md rule R83, with the
conditional cycles of 40_addressing.md rule R115 and 43_shift_rotate_branch.md rule R174; and, separately, the `tick(n)`
arguments of the rules' pseudocode (46_dispatch_loop.md rule R238). The machine does not read this file: it counts access
by access, and statements compare the two. The states below are the one `exec` is given.
-/

namespace Sys2Proof.Machine

/-- The cycles column of 30_encoding.md rule R83, the conditional cycles left out. -/
def baseCycles : Instr → Nat
  | .adcImm _ | .sbcImm _ | .cmpImm _ | .cpxImm _ | .cpyImm _ | .andImm _ | .oraImm _ | .eorImm _ => 2
  | .ldaImm _ | .ldxImm _ | .ldyImm _ | .tax | .tay | .txa | .tya | .inx => 2
  | .iny | .dex | .dey | .aslAcc | .lsrAcc | .rolAcc | .rorAcc | .bpl _ => 2
  | .bmi _ | .bvc _ | .bvs _ | .bcc _ | .bcs _ | .bne _ | .beq _ | .tsx => 2
  | .txs | .clc | .sec | .cli | .sei | .clv | .cld | .sed => 2
  | .nop => 2
  | .adcZp _ | .sbcZp _ | .cmpZp _ | .cpxZp _ | .cpyZp _ | .andZp _ | .oraZp _ | .eorZp _ => 3
  | .bitZp _ | .ldaZp _ | .ldxZp _ | .ldyZp _ | .staZp _ | .stxZp _ | .styZp _ | .pha => 3
  | .php | .jmpAbs _ => 3
  | .adcZpx _ | .adcAbs _ | .adcAbsx _ | .adcAbsy _ | .sbcZpx _ | .sbcAbs _ | .sbcAbsx _ | .sbcAbsy _ => 4
  | .cmpZpx _ | .cmpAbs _ | .cmpAbsx _ | .cmpAbsy _ | .cpxAbs _ | .cpyAbs _ | .andZpx _ | .andAbs _ => 4
  | .andAbsx _ | .andAbsy _ | .oraZpx _ | .oraAbs _ | .oraAbsx _ | .oraAbsy _ | .eorZpx _ | .eorAbs _ => 4
  | .eorAbsx _ | .eorAbsy _ | .bitAbs _ | .ldaZpx _ | .ldaAbs _ | .ldaAbsx _ | .ldaAbsy _ | .ldxZpy _ => 4
  | .ldxAbs _ | .ldxAbsy _ | .ldyZpx _ | .ldyAbs _ | .ldyAbsx _ | .staZpx _ | .staAbs _ | .stxZpy _ => 4
  | .stxAbs _ | .styZpx _ | .styAbs _ | .pla | .plp => 4
  | .adcIndy _ | .sbcIndy _ | .cmpIndy _ | .andIndy _ | .oraIndy _ | .eorIndy _ | .ldaIndy _ | .staAbsx _ => 5
  | .staAbsy _ | .incZp _ | .decZp _ | .aslZp _ | .lsrZp _ | .rolZp _ | .rorZp _ | .jmpInd _ => 5
  | .adcIndx _ | .sbcIndx _ | .cmpIndx _ | .andIndx _ | .oraIndx _ | .eorIndx _ | .ldaIndx _ | .staIndx _ => 6
  | .staIndy _ | .incZpx _ | .incAbs _ | .decZpx _ | .decAbs _ | .aslZpx _ | .aslAbs _ | .lsrZpx _ => 6
  | .lsrAbs _ | .rolZpx _ | .rolAbs _ | .rorZpx _ | .rorAbs _ | .jsr _ | .rts | .rti => 6
  | .incAbsx _ | .decAbsx _ | .aslAbsx _ | .lsrAbsx _ | .rolAbsx _ | .rorAbsx _ | .brk => 7

/-- The rows with "(+1 on page cross)" in 30_encoding.md rule R83: the indexed forms that only read their operand. -/
def paysPageCross (i : Instr) : Bool :=
  match i.mnemonic with
  | .LDA | .LDX | .LDY | .ADC | .SBC | .CMP | .AND | .ORA | .EOR =>
    match i.mode with
    | .absx | .absy | .indy => true
    | _ => false
  | _ => false

/-- The condition of a branch (43_shift_rotate_branch.md rules R175 to R182), and false of any other instruction. -/
def branchTaken (m : Mnemonic) (p : Byte) : Bool :=
  match m with
  | .BPL => !getFlag .N p
  | .BMI => getFlag .N p
  | .BVC => !getFlag .V p
  | .BVS => getFlag .V p
  | .BCC => !getFlag .C p
  | .BCS => getFlag .C p
  | .BNE => !getFlag .Z p
  | .BEQ => getFlag .Z p
  | _ => false

/-- The conditional cycles of an instruction: a page cross of an indexed read, and a taken branch with its own page cross
(40_addressing.md rule R115; 43_shift_rotate_branch.md rule R174). -/
def conditionalCycles (i : Instr) (s : State) : Nat :=
  match i.operand with
  | .mem m => if paysPageCross i && crossesPage (baseAddr m s) (effAddr m s) then 1 else 0
  | .rel o =>
    if branchTaken i.mnemonic s.p then
      if crossesPage s.pc (s.pc + sext8 o) then 2 else 1
    else 0
  | .imp | .acc | .imm _ | .ind _ => 0

/-- The total cost of an instruction, opcode fetch included (30_encoding.md rule R83; 46_dispatch_loop.md rule R238). -/
def totalCycles (i : Instr) (s : State) : Nat := baseCycles i + conditionalCycles i s

/-- The `tick` arguments of the resolver's modes (40_addressing.md rules R105, R107 to R110). -/
def modeTicks (fl : Flavour) (m : MemOperand) (s : State) : Nat :=
  match m with
  | .zp _ | .abs _ => 0
  | .zpx _ | .zpy _ | .indx _ => 1
  | .absx _ | .absy _ | .indy _ => indexCycles fl m s

/-- The `tick` arguments of an instruction's own rule (41_arith_logic.md to 45_flags_nop.md). -/
def ruleTicks (m : Mnemonic) : Nat :=
  match m with
  | .INC | .DEC | .ASL | .LSR | .ROL | .ROR => 1
  | .TAX | .TAY | .TXA | .TYA | .INX | .INY | .DEX | .DEY | .TSX | .TXS => 1
  | .CLC | .SEC | .CLI | .SEI | .CLV | .CLD | .SED | .NOP => 1
  | .PHA | .PHP | .JSR | .BRK => 1
  | .PLA | .PLP | .RTI => 2
  | .RTS => 3
  | _ => 0

/-- The flavour in which an instruction resolves its memory operand (40_addressing.md rules R107, R108). -/
def flavourOf (m : Mnemonic) : Flavour :=
  match m with
  | .STA | .STX | .STY | .INC | .DEC | .ASL | .LSR | .ROL | .ROR => .store
  | _ => .read

/-- All the cycles of an instruction that are not a memory access (46_dispatch_loop.md rule R238). -/
def tickTotal (i : Instr) (s : State) : Nat :=
  ruleTicks i.mnemonic +
    match i.operand with
    | .mem m => modeTicks (flavourOf i.mnemonic) m s
    | .rel _ => conditionalCycles i s
    | .imp | .acc | .imm _ | .ind _ => 0

end Sys2Proof.Machine
end

