-- ==== Sys2Proof/Machine/Trace.lean ====
section
/-!
DEFINITION. The port accesses of one step, in order (20_memory.md rules R64 to R66): opcode byte, operand bytes, pointer
bytes, data read, data write; stack instructions in the order of 44_stack_jump_interrupt.md. The machine does not read
this file: it makes its accesses through `memRead` and `memWrite`, and statements compare the two.
-/

namespace Sys2Proof.Machine

/-- One use of the memory port (20_memory.md rule R51). -/
inductive Access where
  /-- `MemRead(addr, 1)` returning `v`. -/
  | read (addr : Addr) (v : Byte)
  /-- `MemWrite(addr, 1, v)`. -/
  | write (addr : Addr) (v : Byte)
deriving DecidableEq, Repr

/-- A read of what `s` holds at an address. -/
def readAt (s : State) (addr : Addr) : Access := .read addr (s.byteAt addr)

/-- The reads of `n` instruction bytes from `addr` upwards (20_memory.md rule R64, items 1 and 2). -/
def fetchAccesses (s : State) : Nat → Addr → List Access
  | 0, _ => []
  | n + 1, addr => readAt s addr :: fetchAccesses s n (addr + 1)

/-- The two reads of a zero-page pointer (40_addressing.md rule R114). -/
def zpPtrAccesses (z : Byte) (s : State) : List Access :=
  [readAt s (zpAddr z), readAt s (zpPtrHiAddr s.cfg.zpPtrWrap z)]

/-- The pointer reads of a memory operand (20_memory.md rule R64, item 3). -/
def pointerAccesses (m : MemOperand) (s : State) : List Access :=
  match m with
  | .indx z => zpPtrAccesses (z + s.x) s
  | .indy z => zpPtrAccesses z s
  | .zp _ | .zpx _ | .zpy _ | .abs _ | .absx _ | .absy _ => []

/-- What an instruction does at the effective address of its memory operand (40_addressing.md rule R111). -/
def operandAccesses (at_ : Addr → List Access) (o : Operand) (s : State) : List Access :=
  match o with
  | .mem m => pointerAccesses m s ++ at_ (effAddr m s)
  | .imp | .acc | .imm _ | .ind _ | .rel _ => []

/-- `ReadOperand`: one read. -/
def readAccesses (o : Operand) (s : State) : List Access := operandAccesses (fun ea => [readAt s ea]) o s

/-- `WriteResult`: one write. -/
def storeAccesses (v : Byte) (o : Operand) (s : State) : List Access := operandAccesses (fun ea => [.write ea v]) o s

/-- `Modify`: one read and one write at one address. -/
def modifyAccesses (f : ModifyFn) (o : Operand) (s : State) : List Access :=
  operandAccesses (fun ea => [readAt s ea, .write ea (f (s.byteAt ea) s.p).1]) o s

/-- The instructions that read `P.D` (41_arith_logic.md rule R123). -/
def isDecimalSensitive (i : Instr) : Bool := i.mnemonic == .ADC || i.mnemonic == .SBC

/-- The accesses after the instruction's own bytes of an instruction that completes, from the state `exec` is given (20_memory.md rules R64, R66). -/
def dataAccesses (i : Instr) (s : State) : List Access :=
  match i.mnemonic with
  | .LDA | .LDX | .LDY | .ADC | .SBC | .CMP | .CPX | .CPY | .AND | .ORA | .EOR | .BIT => readAccesses i.operand s
  | .STA => storeAccesses s.a i.operand s
  | .STX => storeAccesses s.x i.operand s
  | .STY => storeAccesses s.y i.operand s
  | .INC => modifyAccesses incFn i.operand s
  | .DEC => modifyAccesses decFn i.operand s
  | .ASL => modifyAccesses aslFn i.operand s
  | .LSR => modifyAccesses lsrFn i.operand s
  | .ROL => modifyAccesses rolFn i.operand s
  | .ROR => modifyAccesses rorFn i.operand s
  | .PHA => [.write (stackAddr s.sp) s.a]
  | .PHP => [.write (stackAddr s.sp) (pushedStatus s.p)]
  | .PLA | .PLP => [readAt s (stackAddr (s.sp + 1))]
  | .JSR => [.write (stackAddr s.sp) (hiByte (s.pc - 1)), .write (stackAddr (s.sp - 1)) (loByte (s.pc - 1))]
  | .RTS => [readAt s (stackAddr (s.sp + 1)), readAt s (stackAddr (s.sp + 2))]
  | .BRK => [.write (stackAddr s.sp) (hiByte (s.pc + 1)), .write (stackAddr (s.sp - 1)) (loByte (s.pc + 1)),
      .write (stackAddr (s.sp - 2)) (pushedStatus s.p), readAt s vectorAddr, readAt s (vectorAddr + 1)]
  | .RTI => [readAt s (stackAddr (s.sp + 1)), readAt s (stackAddr (s.sp + 2)), readAt s (stackAddr (s.sp + 3))]
  | .JMP =>
    match i.operand with
    | .ind ptr => [readAt s ptr, readAt s (jmpIndHiAddr s.cfg.jmpIndPageWrap ptr)]
    | _ => []
  | .BPL | .BMI | .BVC | .BVS | .BCC | .BCS | .BNE | .BEQ => []
  | .TAX | .TAY | .TXA | .TYA | .TSX | .TXS | .INX | .INY | .DEX | .DEY => []
  | .CLC | .SEC | .CLI | .SEI | .CLV | .CLD | .SED | .NOP => []

/-- Every port access of the step from a state, in order (20_memory.md rule R64). Two steps read their opcode byte and
nothing else: that of an unknown opcode (46_dispatch_loop.md rule R232), and that of an ADC or SBC with `P.D = 1`, whose
check stands before any operand access (41_arith_logic.md rules R121 to R123; log 5). -/
def stepAccesses (s : State) : List Access :=
  match fetchInstr s with
  | .instr i s1 =>
    if isDecimalSensitive i && s.flag .D then [readAt s s.pc]
    else fetchAccesses s i.length s.pc ++ dataAccesses i s1
  | .unknown _ => [readAt s s.pc]

/-- The memory after a list of accesses in order, or none where a read does not return what memory then holds
(20_memory.md rules R51, R59). -/
def replay : List Access → Memory → Option Memory
  | [], m => some m
  | .read addr v :: rest, m => if m.read addr.toNat = v then replay rest m else none
  | .write addr v :: rest, m => replay rest (m.write addr.toNat v)

end Sys2Proof.Machine
end

