-- ==== Sys2Proof/Machine/HostInterface.lean ====
section
/-!
DEFINITION. What the host does to the CORE, all of it between `execute` calls (70_reset_and_hazards.md rule R287): reset,
program load, `execute`, field access, and writes to memory.
-/

namespace Sys2Proof.Machine

/-! ### Reset, and access to fields and memory -/

/-- `reset(memory, reset_vector)`, with the memory the host leaves (70_reset_and_hazards.md rules R280 to R282, R286); the
reference behaviour is `initMem = []`, memory all zero. -/
def hostReset (resetVector : Addr) (initMem : Memory) (s : State) : State := State.afterReset s.cfg resetVector initMem

/-- `get_flag` (10_state.md rule R35). -/
def hostGetFlag (f : Flag) (s : State) : Bool := s.flag f

/-- `set_flag` (10_state.md rule R35). -/
def hostSetFlag (f : Flag) (b : Bool) (s : State) : State := s.setFlag f b

/-- "the four 8-bit registers" (10_state.md rule R35; 70_reset_and_hazards.md rule R288). -/
inductive HostReg where
  | A | X | Y | SP
deriving DecidableEq, Repr

/-- The host reads a register (70_reset_and_hazards.md rule R288). -/
def hostReadReg (r : HostReg) (s : State) : Byte :=
  match r with
  | .A => s.a
  | .X => s.x
  | .Y => s.y
  | .SP => s.sp

/-- The host writes a register (70_reset_and_hazards.md rule R288). -/
def hostWriteReg (r : HostReg) (v : Byte) (s : State) : State :=
  match r with
  | .A => s.setA v
  | .X => s.setX v
  | .Y => s.setY v
  | .SP => s.setSp v

/-- The host writes a byte of memory (70_reset_and_hazards.md rule R287). -/
def hostWriteMem (addr : Addr) (v : Byte) (s : State) : State := s.setMem (s.mem.write addr.toNat v)

/-- `load_program(memory, bytes)`: the load address and the memory written (70_reset_and_hazards.md rule R283). Outside
the CORE; its open corners are log 8. -/
def loadProgram (bytes : List Byte) (s : State) : Addr × State :=
  match bytes with
  | b0 :: b1 :: image => (word16 b1 b0, s.setMem (writeBytes image (word16 b1 b0) s.mem))
  | _ => (Config.defaultLoadAddress, s)

/-! ### execute(BUDGET) -/

/-- The ends of an `execute` call (00_scope.md rule R10). -/
inductive RunEnd where
  /-- The cycles spent have reached the budget at an instruction boundary. -/
  | budgetExhausted (s : State)
  /-- `Halted(op)`, with the state it leaves (46_dispatch_loop.md rule R232). -/
  | halted (op : Byte) (s : State)
  /-- A fault: the call is aborted and no state is promised (60_exceptions.md rule R251). -/
  | aborted (f : Fault)
  /-- A refusal that is no `Halted`: `step` never answers one, since every instruction has its meaning (log 9). -/
  | refused (r : Refusal)
deriving DecidableEq, Repr

/-- The return value of `execute`: the cycles spent (46_dispatch_loop.md rule R234); none for an aborted call. -/
def RunEnd.cycles : RunEnd → Option Nat
  | .budgetExhausted s => some s.cyc
  | .halted _ s => some s.cyc
  | .aborted _ => none
  | .refused _ => none

/-- The loop of `execute` (46_dispatch_loop.md rules R233, R240), at most `n` more instructions. -/
def runLoop (budget : Nat) : Nat → State → RunEnd
  | 0, s => .budgetExhausted s
  | n + 1, s =>
    if budget ≤ s.cyc then .budgetExhausted s
    else
      match step s with
      | .next s' => runLoop budget n s'
      | .fault f => .aborted f
      | .refused (.unknownOpcode op) => .halted op (stateAfterHalt s)
      | .refused r => .refused r

/-- `execute(BUDGET)` (46_dispatch_loop.md rules R233 to R236). An instruction costs at least one cycle, so `budget`
instructions spend the budget (log 9). -/
def execute (budget : Nat) (s : State) : RunEnd := runLoop budget budget { s with cyc := 0 }

end Sys2Proof.Machine
end

