-- ==== Sys2Proof/Safety.lean ====
section
/-!
DEFINITION. What statements call a good state, a reachable state and a safe run.
-/

namespace Sys2Proof.Machine

/-- The invariant of the machine: memory is in canonical form, and bit 5 of `P` is 0 (10_state.md rule R32). -/
abbrev State.Inv (s : State) : Prop := s.mem.wf = true ∧ unusedBit s.p = false

/-- The states the machine and its host can reach (70_reset_and_hazards.md rule R287; 46_dispatch_loop.md rule R236): a
reset with any `RESET_PC` and any memory, steps, the state a halt leaves, the start of a call, and host access. -/
inductive Reachable : State → Prop where
  | reset (cfg : Config) (resetPc : Addr) (initMem : Memory) (h : initMem.wf = true) :
      Reachable (State.afterReset cfg resetPc initMem)
  | step {s s' : State} (h : Reachable s) (hs : Machine.step s = .next s') : Reachable s'
  | halt {s : State} (h : Reachable s) (op : Byte) (hs : Machine.step s = .refused (.unknownOpcode op)) :
      Reachable (stateAfterHalt s)
  | startCall {s : State} (h : Reachable s) : Reachable { s with cyc := 0 }
  | setFlag {s : State} (h : Reachable s) (f : Flag) (b : Bool) : Reachable (hostSetFlag f b s)
  | writeReg {s : State} (h : Reachable s) (r : HostReg) (v : Byte) : Reachable (hostWriteReg r v s)
  | writeMem {s : State} (h : Reachable s) (addr : Addr) (v : Byte) : Reachable (hostWriteMem addr v s)

/-- A step that does not end in a fault. A halt is no fault: it is how a program ends its own run (00_scope.md rule R10). -/
def SafeStep (s : State) : Prop := ∀ f : Fault, step s ≠ .fault f

/-- A run that is not aborted (00_scope.md rule R10). -/
def SafeRun (budget : Nat) (s : State) : Prop := ∀ f : Fault, execute budget s ≠ .aborted f

end Sys2Proof.Machine
end

