-- ==== Sys2Proof/Certificates/Slice0/Obligations.lean ====
section
/-!
DEFINITION. The statements for the provers. First the forms of each instruction as its own rule lists them ("Encoding",
"Cycles"), as rows over arbitrary operand bytes; then the obligations. An equation `exec i s = .next { s with … }` says the
result, the completion and the frame at once: every field not named keeps its value. The state `exec` is given holds `PC`
past the instruction's bytes and `CYC` with their fetches counted (log 6).
-/

namespace Sys2Proof.Forms

open Sys2Proof.Machine

/-- A form that reads an operand: opcode byte, total cycles without a page cross, instruction, operand. -/
structure Row where
  opcode : Byte
  cycles : Nat
  instr : Instr
  src : Source

/-- A form with a memory operand that it writes: opcode byte, total cycles, instruction, operand. -/
structure MemRow where
  opcode : Byte
  cycles : Nat
  instr : Instr
  mem : MemOperand

/-- The `p` of the instruction rules: one more cycle on a page cross of an indexed read (40_addressing.md rule R115). -/
def pageCross (src : Source) (s : State) : Nat :=
  match src with
  | .mem (.absx a) => if hiByte (a + zext8 s.x) ≠ hiByte a then 1 else 0
  | .mem (.absy a) => if hiByte (a + zext8 s.y) ≠ hiByte a then 1 else 0
  | .mem (.indy z) => if hiByte (zpPointer z s + zext8 s.y) ≠ hiByte (zpPointer z s) then 1 else 0
  | _ => 0

/-- `CYC` after a form that reads an operand: the total less the fetches already counted. -/
def Row.cycAfter (r : Row) (s : State) : Nat := s.cyc + (r.cycles - r.instr.length) + pageCross r.src s

/-- `CYC` after a form that writes its operand. -/
def MemRow.cycAfter (r : MemRow) (s : State) : Nat := s.cyc + (r.cycles - r.instr.length)

/-- The forms of ADC (rule R121). -/
def adc (b : Byte) (w : Addr) : List Row :=
  [⟨0x69, 2, .adcImm b, .imm b⟩, ⟨0x65, 3, .adcZp b, .mem (.zp b)⟩, ⟨0x75, 4, .adcZpx b, .mem (.zpx b)⟩,
   ⟨0x6D, 4, .adcAbs w, .mem (.abs w)⟩, ⟨0x7D, 4, .adcAbsx w, .mem (.absx w)⟩, ⟨0x79, 4, .adcAbsy w, .mem (.absy w)⟩,
   ⟨0x61, 6, .adcIndx b, .mem (.indx b)⟩, ⟨0x71, 5, .adcIndy b, .mem (.indy b)⟩]

/-- The forms of SBC (rule R122). -/
def sbc (b : Byte) (w : Addr) : List Row :=
  [⟨0xE9, 2, .sbcImm b, .imm b⟩, ⟨0xE5, 3, .sbcZp b, .mem (.zp b)⟩, ⟨0xF5, 4, .sbcZpx b, .mem (.zpx b)⟩,
   ⟨0xED, 4, .sbcAbs w, .mem (.abs w)⟩, ⟨0xFD, 4, .sbcAbsx w, .mem (.absx w)⟩, ⟨0xF9, 4, .sbcAbsy w, .mem (.absy w)⟩,
   ⟨0xE1, 6, .sbcIndx b, .mem (.indx b)⟩, ⟨0xF1, 5, .sbcIndy b, .mem (.indy b)⟩]

/-- The forms of CMP (rule R125). -/
def cmp (b : Byte) (w : Addr) : List Row :=
  [⟨0xC9, 2, .cmpImm b, .imm b⟩, ⟨0xC5, 3, .cmpZp b, .mem (.zp b)⟩, ⟨0xD5, 4, .cmpZpx b, .mem (.zpx b)⟩,
   ⟨0xCD, 4, .cmpAbs w, .mem (.abs w)⟩, ⟨0xDD, 4, .cmpAbsx w, .mem (.absx w)⟩, ⟨0xD9, 4, .cmpAbsy w, .mem (.absy w)⟩,
   ⟨0xC1, 6, .cmpIndx b, .mem (.indx b)⟩, ⟨0xD1, 5, .cmpIndy b, .mem (.indy b)⟩]

/-- The forms of CPX (rule R126). -/
def cpx (b : Byte) (w : Addr) : List Row :=
  [⟨0xE0, 2, .cpxImm b, .imm b⟩, ⟨0xE4, 3, .cpxZp b, .mem (.zp b)⟩, ⟨0xEC, 4, .cpxAbs w, .mem (.abs w)⟩]

/-- The forms of CPY (rule R127). -/
def cpy (b : Byte) (w : Addr) : List Row :=
  [⟨0xC0, 2, .cpyImm b, .imm b⟩, ⟨0xC4, 3, .cpyZp b, .mem (.zp b)⟩, ⟨0xCC, 4, .cpyAbs w, .mem (.abs w)⟩]

/-- The forms of AND (rule R128). -/
def and (b : Byte) (w : Addr) : List Row :=
  [⟨0x29, 2, .andImm b, .imm b⟩, ⟨0x25, 3, .andZp b, .mem (.zp b)⟩, ⟨0x35, 4, .andZpx b, .mem (.zpx b)⟩,
   ⟨0x2D, 4, .andAbs w, .mem (.abs w)⟩, ⟨0x3D, 4, .andAbsx w, .mem (.absx w)⟩, ⟨0x39, 4, .andAbsy w, .mem (.absy w)⟩,
   ⟨0x21, 6, .andIndx b, .mem (.indx b)⟩, ⟨0x31, 5, .andIndy b, .mem (.indy b)⟩]

/-- The forms of ORA (rule R129). -/
def ora (b : Byte) (w : Addr) : List Row :=
  [⟨0x09, 2, .oraImm b, .imm b⟩, ⟨0x05, 3, .oraZp b, .mem (.zp b)⟩, ⟨0x15, 4, .oraZpx b, .mem (.zpx b)⟩,
   ⟨0x0D, 4, .oraAbs w, .mem (.abs w)⟩, ⟨0x1D, 4, .oraAbsx w, .mem (.absx w)⟩, ⟨0x19, 4, .oraAbsy w, .mem (.absy w)⟩,
   ⟨0x01, 6, .oraIndx b, .mem (.indx b)⟩, ⟨0x11, 5, .oraIndy b, .mem (.indy b)⟩]

/-- The forms of EOR (rule R130). -/
def eor (b : Byte) (w : Addr) : List Row :=
  [⟨0x49, 2, .eorImm b, .imm b⟩, ⟨0x45, 3, .eorZp b, .mem (.zp b)⟩, ⟨0x55, 4, .eorZpx b, .mem (.zpx b)⟩,
   ⟨0x4D, 4, .eorAbs w, .mem (.abs w)⟩, ⟨0x5D, 4, .eorAbsx w, .mem (.absx w)⟩, ⟨0x59, 4, .eorAbsy w, .mem (.absy w)⟩,
   ⟨0x41, 6, .eorIndx b, .mem (.indx b)⟩, ⟨0x51, 5, .eorIndy b, .mem (.indy b)⟩]

/-- The forms of BIT (rule R131). -/
def bit (b : Byte) (w : Addr) : List Row :=
  [⟨0x24, 3, .bitZp b, .mem (.zp b)⟩, ⟨0x2C, 4, .bitAbs w, .mem (.abs w)⟩]

/-- The forms of LDA (rule R140). -/
def lda (b : Byte) (w : Addr) : List Row :=
  [⟨0xA9, 2, .ldaImm b, .imm b⟩, ⟨0xA5, 3, .ldaZp b, .mem (.zp b)⟩, ⟨0xB5, 4, .ldaZpx b, .mem (.zpx b)⟩,
   ⟨0xAD, 4, .ldaAbs w, .mem (.abs w)⟩, ⟨0xBD, 4, .ldaAbsx w, .mem (.absx w)⟩, ⟨0xB9, 4, .ldaAbsy w, .mem (.absy w)⟩,
   ⟨0xA1, 6, .ldaIndx b, .mem (.indx b)⟩, ⟨0xB1, 5, .ldaIndy b, .mem (.indy b)⟩]

/-- The forms of LDX (rule R141). -/
def ldx (b : Byte) (w : Addr) : List Row :=
  [⟨0xA2, 2, .ldxImm b, .imm b⟩, ⟨0xA6, 3, .ldxZp b, .mem (.zp b)⟩, ⟨0xB6, 4, .ldxZpy b, .mem (.zpy b)⟩,
   ⟨0xAE, 4, .ldxAbs w, .mem (.abs w)⟩, ⟨0xBE, 4, .ldxAbsy w, .mem (.absy w)⟩]

/-- The forms of LDY (rule R142). -/
def ldy (b : Byte) (w : Addr) : List Row :=
  [⟨0xA0, 2, .ldyImm b, .imm b⟩, ⟨0xA4, 3, .ldyZp b, .mem (.zp b)⟩, ⟨0xB4, 4, .ldyZpx b, .mem (.zpx b)⟩,
   ⟨0xAC, 4, .ldyAbs w, .mem (.abs w)⟩, ⟨0xBC, 4, .ldyAbsx w, .mem (.absx w)⟩]

/-- The forms of STA (rule R143). -/
def sta (b : Byte) (w : Addr) : List MemRow :=
  [⟨0x85, 3, .staZp b, .zp b⟩, ⟨0x95, 4, .staZpx b, .zpx b⟩, ⟨0x8D, 4, .staAbs w, .abs w⟩,
   ⟨0x9D, 5, .staAbsx w, .absx w⟩, ⟨0x99, 5, .staAbsy w, .absy w⟩, ⟨0x81, 6, .staIndx b, .indx b⟩,
   ⟨0x91, 6, .staIndy b, .indy b⟩]

/-- The forms of STX (rule R144). -/
def stx (b : Byte) (w : Addr) : List MemRow :=
  [⟨0x86, 3, .stxZp b, .zp b⟩, ⟨0x96, 4, .stxZpy b, .zpy b⟩, ⟨0x8E, 4, .stxAbs w, .abs w⟩]

/-- The forms of STY (rule R145). -/
def sty (b : Byte) (w : Addr) : List MemRow :=
  [⟨0x84, 3, .styZp b, .zp b⟩, ⟨0x94, 4, .styZpx b, .zpx b⟩, ⟨0x8C, 4, .styAbs w, .abs w⟩]

/-- The forms of INC (rule R150). -/
def inc (b : Byte) (w : Addr) : List MemRow :=
  [⟨0xE6, 5, .incZp b, .zp b⟩, ⟨0xF6, 6, .incZpx b, .zpx b⟩, ⟨0xEE, 6, .incAbs w, .abs w⟩,
   ⟨0xFE, 7, .incAbsx w, .absx w⟩]

/-- The forms of DEC (rule R151). -/
def dec (b : Byte) (w : Addr) : List MemRow :=
  [⟨0xC6, 5, .decZp b, .zp b⟩, ⟨0xD6, 6, .decZpx b, .zpx b⟩, ⟨0xCE, 6, .decAbs w, .abs w⟩,
   ⟨0xDE, 7, .decAbsx w, .absx w⟩]

/-- The forms of ASL (rule R170), its accumulator form apart. -/
def asl (b : Byte) (w : Addr) : List MemRow :=
  [⟨0x06, 5, .aslZp b, .zp b⟩, ⟨0x16, 6, .aslZpx b, .zpx b⟩, ⟨0x0E, 6, .aslAbs w, .abs w⟩,
   ⟨0x1E, 7, .aslAbsx w, .absx w⟩]

/-- The forms of LSR (rule R171), its accumulator form apart. -/
def lsr (b : Byte) (w : Addr) : List MemRow :=
  [⟨0x46, 5, .lsrZp b, .zp b⟩, ⟨0x56, 6, .lsrZpx b, .zpx b⟩, ⟨0x4E, 6, .lsrAbs w, .abs w⟩,
   ⟨0x5E, 7, .lsrAbsx w, .absx w⟩]

/-- The forms of ROL (rule R172), its accumulator form apart. -/
def rol (b : Byte) (w : Addr) : List MemRow :=
  [⟨0x26, 5, .rolZp b, .zp b⟩, ⟨0x36, 6, .rolZpx b, .zpx b⟩, ⟨0x2E, 6, .rolAbs w, .abs w⟩,
   ⟨0x3E, 7, .rolAbsx w, .absx w⟩]

/-- The forms of ROR (rule R173), its accumulator form apart. -/
def ror (b : Byte) (w : Addr) : List MemRow :=
  [⟨0x66, 5, .rorZp b, .zp b⟩, ⟨0x76, 6, .rorZpx b, .zpx b⟩, ⟨0x6E, 6, .rorAbs w, .abs w⟩,
   ⟨0x7E, 7, .rorAbsx w, .absx w⟩]

/-- The two flag writers of a branch: the flag it tests and the value it branches on (43_shift_rotate_branch.md rules
R175 to R182). -/
structure BranchRow where
  opcode : Byte
  instr : Instr
  flag : Flag
  value : Bool

/-- The eight branches with an offset byte. -/
def branches (rel8 : Byte) : List BranchRow :=
  [⟨0x10, .bpl rel8, .N, false⟩, ⟨0x30, .bmi rel8, .N, true⟩, ⟨0x50, .bvc rel8, .V, false⟩, ⟨0x70, .bvs rel8, .V, true⟩,
   ⟨0x90, .bcc rel8, .C, false⟩, ⟨0xB0, .bcs rel8, .C, true⟩, ⟨0xD0, .bne rel8, .Z, false⟩, ⟨0xF0, .beq rel8, .Z, true⟩]

/-- The seven flag instructions: opcode byte, instruction, the flag written and the value (45_flags_nop.md rules R220 to
R226). -/
def flagSetters : List BranchRow :=
  [⟨0x18, .clc, .C, false⟩, ⟨0x38, .sec, .C, true⟩, ⟨0x58, .cli, .I, false⟩, ⟨0x78, .sei, .I, true⟩,
   ⟨0xB8, .clv, .V, false⟩, ⟨0xD8, .cld, .D, false⟩, ⟨0xF8, .sed, .D, true⟩]

/-- The 105 unknown opcode bytes, as 30_encoding.md rule R84 lists them. -/
def unknownOpcodes : List Byte :=
  unknown0 ++ unknown1 ++ unknown2 ++ unknown3
where
  unknown0 : List Byte :=
    [0x02, 0x03, 0x04, 0x07, 0x0B, 0x0C, 0x0F, 0x12, 0x13, 0x14, 0x17, 0x1A, 0x1B, 0x1C, 0x1F,
     0x22, 0x23, 0x27, 0x2B, 0x2F, 0x32, 0x33, 0x34, 0x37, 0x3A, 0x3B, 0x3C]
  unknown1 : List Byte :=
    [0x3F, 0x42, 0x43, 0x44, 0x47, 0x4B, 0x4F, 0x52, 0x53, 0x54, 0x57, 0x5A, 0x5B, 0x5C, 0x5F,
     0x62, 0x63, 0x64, 0x67, 0x6B, 0x6F, 0x72, 0x73, 0x74, 0x77, 0x7A, 0x7B]
  unknown2 : List Byte :=
    [0x7C, 0x7F, 0x80, 0x82, 0x83, 0x87, 0x89, 0x8B, 0x8F, 0x92, 0x93, 0x97, 0x9B, 0x9C, 0x9E,
     0x9F, 0xA3, 0xA7, 0xAB, 0xAF, 0xB2, 0xB3, 0xB7, 0xBB, 0xBF, 0xC2, 0xC3]
  unknown3 : List Byte :=
    [0xC7, 0xCB, 0xCF, 0xD2, 0xD3, 0xD4, 0xD7, 0xDA, 0xDB, 0xDC, 0xDF, 0xE2, 0xE3, 0xE7, 0xEB,
     0xEF, 0xF2, 0xF3, 0xF4, 0xF7, 0xFA, 0xFB, 0xFC, 0xFF]

/-- The mnemonics that change memory (20_memory.md rule R66; the accumulator forms of the shifts change none). -/
def storing : List Mnemonic := [.STA, .STX, .STY, .INC, .DEC, .ASL, .LSR, .ROL, .ROR, .PHA, .PHP, .JSR, .BRK]

/-- The mnemonics that may change `A` (10_state.md rule R22). -/
def writesA : List Mnemonic := [.LDA, .TXA, .TYA, .PLA, .ADC, .SBC, .AND, .ORA, .EOR, .ASL, .LSR, .ROL, .ROR]
/-- The mnemonics that may change `X` (10_state.md rule R22). -/
def writesX : List Mnemonic := [.LDX, .TAX, .TSX, .INX, .DEX]
/-- The mnemonics that may change `Y` (10_state.md rule R22). -/
def writesY : List Mnemonic := [.LDY, .TAY, .INY, .DEY]
/-- The mnemonics that may change `SP` (10_state.md rule R25). -/
def writesSP : List Mnemonic := [.PHA, .PHP, .PLA, .PLP, .JSR, .RTS, .BRK, .RTI, .TXS]
/-- The mnemonics that load `PC` other than by incrementing (10_state.md rule R24). -/
def writesPC : List Mnemonic := [.BPL, .BMI, .BVC, .BVS, .BCC, .BCS, .BNE, .BEQ, .JMP, .JSR, .RTS, .BRK, .RTI]

/-- The mnemonics that write Z and N through SetZN (10_state.md rules R28, R34). -/
def writesZN : List Mnemonic :=
  [.LDA, .LDX, .LDY, .AND, .ORA, .EOR, .ADC, .SBC, .ASL, .LSR, .ROL, .ROR, .INC, .DEC, .INX, .INY, .DEX, .DEY, .TAX, .TAY,
   .TXA, .TYA, .TSX, .PLA]

/-- The mnemonics that may change a flag (10_state.md rules R27 to R34). -/
def writesFlag : Flag → List Mnemonic
  | .C => [.ADC, .SBC, .CMP, .CPX, .CPY, .ASL, .LSR, .ROL, .ROR, .CLC, .SEC, .PLP, .RTI]
  | .Z => writesZN ++ [.CMP, .CPX, .CPY, .BIT, .PLP, .RTI]
  | .I => [.SEI, .CLI, .BRK, .PLP, .RTI]
  | .D => [.SED, .CLD, .PLP, .RTI]
  | .B => [.BRK, .RTI]
  | .V => [.ADC, .SBC, .BIT, .CLV, .PLP, .RTI]
  | .N => writesZN ++ [.CMP, .CPX, .CPY, .BIT, .PLP, .RTI]

/-- An outcome with every next state changed by `f`. -/
def mapNext (f : State → State) : Result → Result
  | .next s => .next (f s)
  | .fault r => .fault r
  | .refused r => .refused r

/-- The end of a run with every state changed by `f`. -/
def mapEnd (f : State → State) : RunEnd → RunEnd
  | .budgetExhausted s => .budgetExhausted (f s)
  | .halted op s => .halted op (f s)
  | .aborted r => .aborted r
  | .refused r => .refused r

end Sys2Proof.Forms

open Sys2Proof Sys2Proof.Machine

/-! ### Encoding and decoding -/

/-- For every well-formed instruction, with every operand at every value its encoding admits, decoding its bytes
followed by any bytes gives that instruction and exactly those following bytes. Derived from 30_encoding.md, R81,
R82. -/
def Obligations.DecodeOfEncodeIsTheInstruction : Prop :=
  ∀ (i : Instr) (rest : List Byte), i.wf = true → decode (encode i ++ rest) = .instr i rest

/-- For every byte sequence: if it decodes to an instruction i with bytes left over, then it is the encoding of i
followed by exactly those bytes. Derived from 30_encoding.md, R80, R85. -/
def Obligations.EncodeOfDecodeGivesTheBytesBack : Prop :=
  ∀ (bs rest : List Byte) (i : Instr), decode bs = .instr i rest → bs = encode i ++ rest

/-- The list of unknown opcode bytes has 105 entries without repeats, and for every opcode byte and any bytes after it,
decoding answers unknownOpcode of that byte if and only if the byte is in the list. Derived from R84,
30_encoding.md. -/
def Obligations.UnknownOpcodesAreTheListed105 : Prop :=
  Forms.unknownOpcodes.length = 105 ∧ Forms.unknownOpcodes.Nodup ∧
    ∀ (op : Byte) (rest : List Byte), decode (op :: rest) = .unknownOpcode op ↔ op ∈ Forms.unknownOpcodes

/-- For every opcode byte that is not unknown there is a length between 1 and 3 such that every byte sequence that
starts with it and is at least that long decodes, to an instruction of that length, leaving the bytes after it; the
state of the machine is no argument of the decoder, so no mode bit changes it. Formalises R85. -/
def Obligations.LengthIsAFunctionOfTheOpcodeByte : Prop :=
  ∀ op : Byte, op ∉ Forms.unknownOpcodes → ∃ n : Nat, 1 ≤ n ∧ n ≤ 3 ∧
    ∀ rest : List Byte, n ≤ rest.length + 1 →
      ∃ i : Instr, decode (op :: rest) = .instr i (rest.drop (n - 1)) ∧ i.length = n

/-- The bytes of one instruction of each addressing mode and family, taken from the "bytes" column of the spec, decode
to that instruction: operand words are little-endian, operand bytes are taken whole. Derived from 30_encoding.md,
R82, R86. -/
def Obligations.SampleBytesDecodeAsTheRulesSay : Prop :=
  decode [0xA9, 0x84] = .instr (.ldaImm 0x84) [] ∧ decode [0xB6, 0x10] = .instr (.ldxZpy 0x10) [] ∧
    decode [0x8C, 0x34, 0x12] = .instr (.styAbs 0x1234) [] ∧ decode [0x91, 0x10] = .instr (.staIndy 0x10) [] ∧
    decode [0x6D, 0x34, 0x12] = .instr (.adcAbs 0x1234) [] ∧ decode [0xE9, 0xB0] = .instr (.sbcImm 0xB0) [] ∧
    decode [0xC1, 0x20] = .instr (.cmpIndx 0x20) [] ∧ decode [0x24, 0x10] = .instr (.bitZp 0x10) [] ∧
    decode [0x59, 0xFF, 0x12] = .instr (.eorAbsy 0x12FF) [] ∧ decode [0x3E, 0x00, 0x12] = .instr (.rolAbsx 0x1200) [] ∧
    decode [0x0A] = .instr .aslAcc [] ∧ decode [0xD6, 0x10] = .instr (.decZpx 0x10) [] ∧
    decode [0xF0, 0x7F] = .instr (.beq 0x7F) [] ∧ decode [0x6C, 0x34, 0x12] = .instr (.jmpInd 0x1234) [] ∧
    decode [0x20, 0x00, 0x80] = .instr (.jsr 0x8000) [] ∧ decode [0x00, 0xE9] = .instr .brk [0xE9] ∧
    decode [0x40] = .instr .rti [] ∧ decode [0x28] = .instr .plp [] ∧ decode [0xAA] = .instr .tax [] ∧
    decode [0xF8] = .instr .sed [] ∧ decode [0xEA] = .instr .nop []

/-! ### The step -/

/-- For every state and instruction: if the three bytes from PC upwards (modulo 65536) decode to a well-formed
instruction, the step is exec of that instruction from the state with PC advanced by the instruction length modulo
65536, one cycle counted for each of its bytes, and nothing else changed. Derived from R230, R231, R100. -/
def Obligations.StepRunsTheDecodedInstruction : Prop :=
  ∀ (s : State) (i : Instr) (rest : List Byte), i.wf = true →
    decode (bytesFrom s 3 s.pc) = .instr i rest →
    step s = exec i { s with pc := s.pc + BitVec.ofNat 16 i.length, cyc := s.cyc + i.length }

/-- For every state whose byte at PC is an unknown opcode, the step answers Halted of that byte, and the state it leaves
differs from the state before it only in PC, one higher modulo 65536, and CYC, one higher. That the fetch counts and
moves PC is the spec's own inference and decision D17 (log 10). Derived from R232, R230. -/
def Obligations.StepOnAnUnknownOpcodeHalts : Prop :=
  ∀ s : State, s.byteAt s.pc ∈ Forms.unknownOpcodes →
    step s = .refused (.unknownOpcode (s.byteAt s.pc)) ∧
      stateAfterHalt s = { s with pc := s.pc + 1, cyc := s.cyc + 1 }

/-- For every state the step is a fault if and only if the bytes at PC decode to an ADC or SBC and P.D is 1, and the
fault is then DecimalModeFault; it is a refusal if and only if the byte at PC is an unknown opcode, and the refusal
is then Halted of that byte; in every other state it answers a next state. Formalises R9. -/
def Obligations.EveryStepHasOneOfThreeOutcomes : Prop :=
  ∀ s : State,
    (s.byteAt s.pc ∈ Forms.unknownOpcodes → step s = .refused (.unknownOpcode (s.byteAt s.pc))) ∧
    (∀ i rest, decode (bytesFrom s 3 s.pc) = .instr i rest →
      (isDecimalSensitive i = true ∧ s.flag .D = true → step s = .fault .decimalMode) ∧
      (¬ (isDecimalSensitive i = true ∧ s.flag .D = true) → ∃ t, step s = .next t)) ∧
    (s.byteAt s.pc ∈ Forms.unknownOpcodes ∨ ∃ i rest, decode (bytesFrom s 3 s.pc) = .instr i rest)

/-- For every instruction and state, exec answers DecimalModeFault if the instruction is an ADC or SBC of any form and
P.D is 1, and answers a next state otherwise. Formalises R123. -/
def Obligations.OnlyAdcAndSbcWithDSetFault : Prop :=
  ∀ (i : Instr) (s : State),
    (isDecimalSensitive i = true ∧ s.flag .D = true → exec i s = .fault .decimalMode) ∧
    (¬ (isDecimalSensitive i = true ∧ s.flag .D = true) → ∃ t, exec i s = .next t)

/-- For every state in which memory is in canonical form (addresses rising, below 65536, no pair equal to what an
unlisted address reads as: the form is log 2, the model's own representation) and bit 5 of P is 0, a next state of
the step has both. Derived from R32, R51, 20_memory.md. -/
def Obligations.StepKeepsTheInvariant : Prop :=
  ∀ s t : State, s.Inv → step s = .next t → t.Inv

/-- The state after reset with any parameters, any RESET_PC and any canonical memory has canonical memory and bit 5 of P
clear; State.reset is one of them (its RESET_PC is log 1, its memory log 2, the model's choices). Derived from R280,
R281. -/
def Obligations.ResetHasTheInvariant : Prop :=
  State.reset.Inv ∧ ∀ (cfg : Config) (resetPc : Addr) (m : Memory), m.wf = true → (State.afterReset cfg resetPc m).Inv

/-- Every state reachable by any reset, any steps, the state a halt leaves, starting an execute call, and the host's
writes to flags, registers and memory, has bit 5 of P equal to 0 and memory in canonical form. Which operations
reach a state is the model's reading (log 12, DEDUCED), and the canonical form is the model's representation of
memory (log 2, DESIGN CHOICE); no rule is cited for either. Derived from R32, R287, R288. -/
def Obligations.ReachableStatesHaveBit5Clear : Prop :=
  ∀ s : State, Reachable s → s.Inv

/-- For every state and n, the step from the state with n more cycles spent has the outcome of the step from the state
itself, its next state with n more cycles spent. Derived from R237, R238. -/
def Obligations.StepDoesNotDependOnCyc : Prop :=
  ∀ (s : State) (n : Nat), step (s.tick n) = Forms.mapNext (State.tick n) (step s)

/-! ### Timing and accesses -/

/-- For every state and every instruction at PC that completes, CYC grows by the cycles column of its opcode table row,
plus one on a page cross in the rows that say so, plus one for a taken branch and one more when its target is in
another page than the next instruction; the opcode byte is the table's. The totals are partly the spec's decision
D12 from general knowledge (log 10). Derived from R83, R238, R174, R115. -/
def Obligations.EveryStepCostsWhatTheTableSays : Prop :=
  ∀ (s t : State) (i : Instr) (rest : List Byte), decode (bytesFrom s 3 s.pc) = .instr i rest → step s = .next t →
    opcodeByte i = s.byteAt s.pc ∧ t.cyc = s.cyc + totalCycles i (s.pastFetch i.length)

/-- For every state whose bytes at PC decode to an instruction, unless it is an ADC or SBC with P.D 1 (which does not
complete: StoppingStepsReadOnlyTheOpcodeByte says its accesses), the number of its port accesses, opcode fetch
included, plus its tick cycles is the total cost of the table. Derived from R238, R64, R65. -/
def Obligations.CostIsAccessesPlusTicks : Prop :=
  ∀ (s : State) (i : Instr) (rest : List Byte), decode (bytesFrom s 3 s.pc) = .instr i rest →
    ¬ (isDecimalSensitive i = true ∧ s.flag .D = true) →
    (stepAccesses s).length + tickTotal i (s.pastFetch i.length) = totalCycles i (s.pastFetch i.length)

/-- For every instruction and state the total cost is at least 2 and at most 7. Derived from R238, R234. -/
def Obligations.CostsRangeFromTwoToSeven : Prop :=
  ∀ (i : Instr) (s : State), 2 ≤ totalCycles i s ∧ totalCycles i s ≤ 7

/-- For every state with canonical memory and every next state of its step: going through the listed accesses in order
(opcode byte, operand bytes, pointer bytes, data read, data write, or the stack order of the instruction), every
read returns what memory holds at that point, and the writes turn the memory before into the memory after. Derived
from R64, R59, R66. -/
def Obligations.AccessesInOrderExplainTheStep : Prop :=
  ∀ s t : State, s.mem.wf = true → step s = .next t → replay (stepAccesses s) s.mem = some t.mem

/-! ### The execute call -/

/-- For every budget and state: a call that ends by its budget has spent at least the budget and, unless the budget is
0, at most 6 more; a call that ends Halted has spent at least 1 and at most the budget; a budget of 0 runs nothing
and spends 0; and the returned count is the CYC of the final state. The bounds are the spec's own inference and
decision D16 (log 10). Derived from R234, R233, R238. -/
def Obligations.ExecuteReturnsWithinSixOfItsBudget : Prop :=
  ∀ (budget : Nat) (s : State),
    (∀ t, execute budget s = .budgetExhausted t → budget ≤ t.cyc ∧ t.cyc ≤ budget + 6) ∧
    (∀ op t, execute budget s = .halted op t → 1 ≤ t.cyc ∧ t.cyc ≤ budget) ∧
    execute 0 s = .budgetExhausted { s with cyc := 0 } ∧
    (∀ t, execute budget s = .budgetExhausted t → (execute budget s).cycles = some t.cyc) ∧
    (∀ op t, execute budget s = .halted op t → (execute budget s).cycles = some t.cyc)

/-- For every budget and state, execute ends BudgetExhausted with CYC at or past the budget, or Halted of a byte of the
unknown opcode list, the byte before the PC it leaves, or aborted by DecimalModeFault; it never ends refused, the
fourth end that the model's type has (log 9). Derived from R10, R233. -/
def Obligations.ExecuteEndsInOneOfThreeWays : Prop :=
  ∀ (budget : Nat) (s : State),
    (∃ t, execute budget s = .budgetExhausted t ∧ budget ≤ t.cyc) ∨
    (∃ op t, execute budget s = .halted op t ∧ op ∈ Forms.unknownOpcodes ∧ t.byteAt (t.pc - 1) = op) ∨
    execute budget s = .aborted .decimalMode

/-- For every state and budget n whose call ends by its budget in t, and every m: a call with budget (cycles of the
first call) + m from the first state ends exactly as a call with budget m from t does, with the cycles of the first
call added. Derived from R236, R233, R237. -/
def Obligations.ExecuteInSlicesIsOneLongerCall : Prop :=
  ∀ (n m : Nat) (s t : State), execute n s = .budgetExhausted t →
    execute (t.cyc + m) s = Forms.mapEnd (State.tick t.cyc) (execute m t)

/-- For every state, execute with budget 1 ends in the next state of the step from the state with CYC 0 when there is
one, and halts or aborts when that step does. Derived from R263, R233. -/
def Obligations.ABudgetOfOneRunsOneInstruction : Prop :=
  ∀ s : State,
    (∀ t, step { s with cyc := 0 } = .next t → execute 1 s = .budgetExhausted t) ∧
    (∀ f, step { s with cyc := 0 } = .fault f → execute 1 s = .aborted f) ∧
    (s.byteAt s.pc ∈ Forms.unknownOpcodes →
      execute 1 s = .halted (s.byteAt s.pc) { s with pc := s.pc + 1, cyc := 1 })

/-! ### Reset and host access -/

/-- For every state, RESET_PC and memory: after reset A, X, Y and P are 0x00, every flag is clear, SP is 0xFF, PC is the
argument, CYC is 0, memory is the one the host leaves, and the parameters are unchanged. That reset leaves the
parameters, the model's own field, unchanged is the model's choice (log 3, DESIGN CHOICE), for which no rule is
cited. Derived from R280, R281, R282. -/
def Obligations.ResetLeavesWhatTheTableSays : Prop :=
  ∀ (s : State) (resetPc : Addr) (m : Memory),
    hostReset resetPc m s =
      { a := 0x00, x := 0x00, y := 0x00, sp := 0xFF, p := 0x00, pc := resetPc, cyc := 0, mem := m, cfg := s.cfg } ∧
    ∀ f : Flag, (hostReset resetPc m s).flag f = false

/-- For every state: after the host writes a flag, that flag reads the value, every other flag, bit 5 and every other
field are unchanged; after it writes one of A, X, Y, SP, that register reads the value and the other three and every
other field are unchanged; after it writes a byte of canonical memory, that address reads the value and every other
address and field are unchanged. Derived from R35, R288, R287. -/
def Obligations.HostWritesOneFieldOnly : Prop :=
  ∀ s : State,
    (∀ f b, hostGetFlag f (hostSetFlag f b s) = b ∧
      (∀ g, g ≠ f → hostGetFlag g (hostSetFlag f b s) = hostGetFlag g s) ∧
      unusedBit (hostSetFlag f b s).p = unusedBit s.p ∧ (hostSetFlag f b s).setP s.p = s) ∧
    (∀ r v, hostReadReg r (hostWriteReg r v s) = v ∧
      (∀ q, q ≠ r → hostReadReg q (hostWriteReg r v s) = hostReadReg q s) ∧
      hostWriteReg r (hostReadReg r s) (hostWriteReg r v s) = s) ∧
    (∀ addr v, s.mem.wf = true → (hostWriteMem addr v s).byteAt addr = v ∧
      (∀ other, other ≠ addr → (hostWriteMem addr v s).byteAt other = s.byteAt other) ∧
      (hostWriteMem addr v s).setMem s.mem = s)

/-- For every state with canonical memory and every buffer of a header and an image of at most 65536 bytes: the result
is the header's little-endian address; byte k of the image is read at that address + k modulo 65536; every address
the image does not reach and every register keep their values. That the copy wraps is the spec's own reading (log
8). Derived from R283. -/
def Obligations.LoadProgramCopiesTheImage : Prop :=
  ∀ (s : State) (b0 b1 : Byte) (image : List Byte), s.mem.wf = true → image.length ≤ 65536 →
    (loadProgram (b0 :: b1 :: image) s).1 = word16 b1 b0 ∧
    (∀ (k : Nat) (h : k < image.length),
      (loadProgram (b0 :: b1 :: image) s).2.byteAt (word16 b1 b0 + BitVec.ofNat 16 k) = image[k]) ∧
    (∀ addr : Addr, (∀ k : Nat, k < image.length → addr ≠ word16 b1 b0 + BitVec.ofNat 16 k) →
      (loadProgram (b0 :: b1 :: image) s).2.byteAt addr = s.byteAt addr) ∧
    (loadProgram (b0 :: b1 :: image) s).2.setMem s.mem = s

/-! ### Memory, flags and arithmetic -/

/-- For every canonical memory, 16-bit address and byte: after the write the address reads the byte, every other address
reads as before, and the memory is canonical; and two canonical memories that read alike at every 16-bit address are
the same list. The canonical form, that writes keep it and that it makes equal memories equal lists are the model's
representation (log 2, DESIGN CHOICE), for which no rule is cited. Derived from R51, R50. -/
def Obligations.MemoryReadsTheLastWrite : Prop :=
  (∀ (m : Memory) (addr other : Addr) (v : Byte), m.wf = true →
    (m.write addr.toNat v).read addr.toNat = v ∧
    (other ≠ addr → (m.write addr.toNat v).read other.toNat = m.read other.toNat) ∧
    (m.write addr.toNat v).wf = true) ∧
  ∀ m m' : Memory, m.wf = true → m'.wf = true → (∀ addr : Addr, m.read addr.toNat = m'.read addr.toNat) → m = m'

/-- The seven flags lie at bits C 0, Z 1, I 2, D 3, B 4, V 6, N 7; get_flag reads that bit, and after set_flag that bit
is the value written and each of the other seven bits is unchanged. Derived from R26, R35. -/
def Obligations.FlagsAreTheNamedBits : Prop :=
  [Flag.C, .Z, .I, .D, .B, .V, .N].map Flag.bit = [0, 1, 2, 3, 4, 6, 7] ∧
    ∀ (f : Flag) (b : Bool) (p : Byte) (i : Nat), i < 8 →
      getFlag f p = p.getLsbD f.bit ∧
      (setFlag f b p).getLsbD i = if i = f.bit then b else p.getLsbD i

/-- For every value and status byte, after SetZN the Z flag is whether the value is 0, the N flag is bit 7 of the value,
and every other flag and bit 5 are unchanged. Formalises R36. -/
def Obligations.SetZNFollowsTheValue : Prop :=
  ∀ v p : Byte,
    getFlag .Z (setZN v p) = decide (v = 0) ∧ getFlag .N (setZN v p) = v.getLsbD 7 ∧
    unusedBit (setZN v p) = unusedBit p ∧ ∀ f : Flag, f ≠ .Z → f ≠ .N → getFlag f (setZN v p) = getFlag f p

/-- For every two bytes and carry-in: the result is the sum modulo 256; the carry is whether the sum exceeds 255; the
overflow is whether the operands share a sign and the result has the other, in its bit form too, and holds exactly
when the sum of the signed readings lies outside -128 to 127. Formalises R120. -/
def Obligations.AdderGivesSumCarryAndSignedOverflow : Prop :=
  ∀ (a m : Byte) (c : Bool),
    (addCore a m c).1.toNat = (a.toNat + m.toNat + c.toNat) % 256 ∧
    ((addCore a m c).2.1 = true ↔ a.toNat + m.toNat + c.toNat > 255) ∧
    ((addCore a m c).2.2 = true ↔ a.getLsbD 7 = m.getLsbD 7 ∧ (addCore a m c).1.getLsbD 7 ≠ a.getLsbD 7) ∧
    ((addCore a m c).2.2 = true ↔ (~~~(a ^^^ m)) &&& (a ^^^ (addCore a m c).1) &&& 0x80 ≠ 0) ∧
    ((addCore a m c).2.2 = true ↔ a.toInt + m.toInt + c.toNat < -128 ∨ 127 < a.toInt + m.toInt + c.toNat)

/-- For all accumulator a, operand m and carry-in c: with r the result byte of ADC on (a, m, c), SBC on (r, m) with
carry-in 1 - c leaves a; stated of the immediate forms with D clear, the host writing only the carry between the
two. Derived from R121, R122, 95_test_vectors.md. -/
def Obligations.SbcUndoesAdc : Prop :=
  ∀ (s : State) (m : Byte), s.flag .D = false →
    ∃ t u : State, exec (.adcImm m) s = .next t ∧
      exec (.sbcImm m) (hostSetFlag .C (!s.flag .C) t) = .next u ∧ u.a = s.a

/-! ### Effective addresses -/

/-- For every state and operand: zp is the zero-extended byte; zpx and zpy add X or Y modulo 256 inside page zero; abs
is the word; absx and absy add X or Y modulo 65536; indx is the little-endian word at the zero-page address z + X
modulo 256; indy is the little-endian word at z, plus Y modulo 65536; the high byte of a pointer at 0xFF is read at
0x0000 when ZP_PTR_WRAP is wrap and at 0x0100 when it is carry. Both flavours give the same address. Derived from
R104, R105, R106, R107, R109, R110, R114. -/
def Obligations.EffectiveAddressesWrapAsTheRulesSay : Prop :=
  ∀ (s : State) (fl : Flavour) (z : Byte) (w : Addr),
    let next (z : Byte) : Nat :=
      match s.cfg.zpPtrWrap with
      | .wrap => (z.toNat + 1) % 256
      | .carry => z.toNat + 1
    let ptr (z : Byte) : Nat := (s.mem.read z.toNat).toNat + 256 * (s.mem.read (next z)).toNat
    ((resolve fl (.zp z) s).1.toNat = z.toNat) ∧
    ((resolve fl (.zpx z) s).1.toNat = (z.toNat + s.x.toNat) % 256) ∧
    ((resolve fl (.zpy z) s).1.toNat = (z.toNat + s.y.toNat) % 256) ∧
    ((resolve fl (.abs w) s).1 = w) ∧
    ((resolve fl (.absx w) s).1.toNat = (w.toNat + s.x.toNat) % 65536) ∧
    ((resolve fl (.absy w) s).1.toNat = (w.toNat + s.y.toNat) % 65536) ∧
    ((resolve fl (.indx z) s).1.toNat = ptr (z + s.x)) ∧
    ((resolve fl (.indy z) s).1.toNat = (ptr z + s.y.toNat) % 65536)

/-- For every state, operand and flavour the resolver returns the state with only CYC changed: by 0 for zp and abs, 1
for zpx and zpy, 3 for indx; for absx and absy by 1 in the store flavour and by 1 in the read flavour exactly when
the low byte of the base plus the index exceeds 255; for indy by 2 more than that. Derived from R104, R105, R106,
R107, R108, R109, R110, R115. -/
def Obligations.ResolverChangesOnlyCyc : Prop :=
  ∀ (s : State) (m : MemOperand) (fl : Flavour),
    let extra (base : Addr) (index : Byte) : Nat :=
      if fl = .store ∨ base.toNat % 256 + index.toNat > 255 then 1 else 0
    (resolve fl m s).2 =
      s.tick (match m with
        | .zp _ | .abs _ => 0
        | .zpx _ | .zpy _ => 1
        | .absx a => extra a s.x
        | .absy a => extra a s.y
        | .indx _ => 3
        | .indy z => 2 + extra (zpPointer z s) s.y)

/-! ### Loads, stores, transfers, increment and decrement -/

/-- For every form of LDA, LDX and LDY, every operand and every state: the opcode byte is the rule's, and exec answers
the next state in which the register is the operand, P is SetZN of it, CYC has grown to the rule's total (one more
on a page cross), and every other field is unchanged. Formalises R140, R141, R142. -/
def Obligations.LoadsGiveTheOperandAndItsFlags : Prop :=
  ∀ (b : Byte) (w : Addr) (s : State),
    (∀ r ∈ Forms.lda b w, opcodeByte r.instr = r.opcode ∧
      exec r.instr s = .next { s with a := sourceValue r.src s, p := setZN (sourceValue r.src s) s.p, cyc := r.cycAfter s }) ∧
    (∀ r ∈ Forms.ldx b w, opcodeByte r.instr = r.opcode ∧
      exec r.instr s = .next { s with x := sourceValue r.src s, p := setZN (sourceValue r.src s) s.p, cyc := r.cycAfter s }) ∧
    (∀ r ∈ Forms.ldy b w, opcodeByte r.instr = r.opcode ∧
      exec r.instr s = .next { s with y := sourceValue r.src s, p := setZN (sourceValue r.src s) s.p, cyc := r.cycAfter s })

/-- For every form of STA, STX and STY, every operand and every state: the opcode byte is the rule's, and exec answers
the next state in which memory is the old memory with the register written at the effective address, CYC has grown
to the rule's total, and every other field is unchanged. Formalises R143, R144, R145. -/
def Obligations.StoresWriteTheRegister : Prop :=
  ∀ (b : Byte) (w : Addr) (s : State),
    (∀ r ∈ Forms.sta b w, opcodeByte r.instr = r.opcode ∧
      exec r.instr s = .next { s with mem := s.mem.write (effAddr r.mem s).toNat s.a, cyc := r.cycAfter s }) ∧
    (∀ r ∈ Forms.stx b w, opcodeByte r.instr = r.opcode ∧
      exec r.instr s = .next { s with mem := s.mem.write (effAddr r.mem s).toNat s.x, cyc := r.cycAfter s }) ∧
    (∀ r ∈ Forms.sty b w, opcodeByte r.instr = r.opcode ∧
      exec r.instr s = .next { s with mem := s.mem.write (effAddr r.mem s).toNat s.y, cyc := r.cycAfter s })

/-- For every state each of the six transfers answers the next state in which the destination is the source, P is SetZN
of the value copied (TXS leaves P), CYC is one more than after the fetch, and every other field is unchanged; the
opcode bytes are the rules'. What the spec marks as general knowledge in these rules is log 10. Formalises R146,
R147, R148, R149, R194, R195. -/
def Obligations.TransfersCopyAndOnlyTxsSparesTheFlags : Prop :=
  ∀ s : State,
    (opcodeByte .tax = 0xAA ∧ exec .tax s = .next { s with x := s.a, p := setZN s.a s.p, cyc := s.cyc + 1 }) ∧
    (opcodeByte .tay = 0xA8 ∧ exec .tay s = .next { s with y := s.a, p := setZN s.a s.p, cyc := s.cyc + 1 }) ∧
    (opcodeByte .txa = 0x8A ∧ exec .txa s = .next { s with a := s.x, p := setZN s.x s.p, cyc := s.cyc + 1 }) ∧
    (opcodeByte .tya = 0x98 ∧ exec .tya s = .next { s with a := s.y, p := setZN s.y s.p, cyc := s.cyc + 1 }) ∧
    (opcodeByte .tsx = 0xBA ∧ exec .tsx s = .next { s with x := s.sp, p := setZN s.sp s.p, cyc := s.cyc + 1 }) ∧
    (opcodeByte .txs = 0x9A ∧ exec .txs s = .next { s with sp := s.x, cyc := s.cyc + 1 })

/-- For every state, INX and INY answer the next state with the register (r + 1) mod 256 and DEX and DEY with (r + 255)
mod 256, which is r - 1 modulo 256; P is SetZN of the result, CYC is one more than after the fetch, every other
field is unchanged. What the spec marks as general knowledge in these rules is log 10. Formalises R152, R153, R154,
R155. -/
def Obligations.RegisterIncrementAndDecrementWrap : Prop :=
  ∀ s : State,
    (opcodeByte .inx = 0xE8 ∧
      exec .inx s = .next { s with x := BitVec.ofNat 8 ((s.x.toNat + 1) % 256), p := setZN (BitVec.ofNat 8 ((s.x.toNat + 1) % 256)) s.p, cyc := s.cyc + 1 }) ∧
    (opcodeByte .iny = 0xC8 ∧
      exec .iny s = .next { s with y := BitVec.ofNat 8 ((s.y.toNat + 1) % 256), p := setZN (BitVec.ofNat 8 ((s.y.toNat + 1) % 256)) s.p, cyc := s.cyc + 1 }) ∧
    (opcodeByte .dex = 0xCA ∧
      exec .dex s = .next { s with x := BitVec.ofNat 8 ((s.x.toNat + 255) % 256), p := setZN (BitVec.ofNat 8 ((s.x.toNat + 255) % 256)) s.p, cyc := s.cyc + 1 }) ∧
    (opcodeByte .dey = 0x88 ∧
      exec .dey s = .next { s with y := BitVec.ofNat 8 ((s.y.toNat + 255) % 256), p := setZN (BitVec.ofNat 8 ((s.y.toNat + 255) % 256)) s.p, cyc := s.cyc + 1 })

/-- For every form of INC and DEC, every operand and every state: exec answers the next state in which the byte at the
effective address is replaced by itself plus or minus 1 modulo 256, P is SetZN of the byte written, CYC has grown to
the rule's total, and every other field (A, X, Y among them) is unchanged; the opcode bytes are the rules'. What the
spec marks as general knowledge in these rules is log 10. Formalises R150, R151. -/
def Obligations.MemoryIncrementAndDecrementWrap : Prop :=
  ∀ (b : Byte) (w : Addr) (s : State),
    (∀ r ∈ Forms.inc b w, opcodeByte r.instr = r.opcode ∧
      (let v := (s.byteAt (effAddr r.mem s)).toNat
       let q : Byte := BitVec.ofNat 8 ((v + 1) % 256)
       exec r.instr s = .next
        { s with mem := s.mem.write (effAddr r.mem s).toNat q, p := setZN q s.p, cyc := r.cycAfter s })) ∧
    (∀ r ∈ Forms.dec b w, opcodeByte r.instr = r.opcode ∧
      (let v := (s.byteAt (effAddr r.mem s)).toNat
       let q : Byte := BitVec.ofNat 8 ((v + 255) % 256)
       exec r.instr s = .next
        { s with mem := s.mem.write (effAddr r.mem s).toNat q, p := setZN q s.p, cyc := r.cycAfter s }))

/-! ### Arithmetic and logic -/

/-- For every form of ADC, every operand and every state: with D clear, exec answers the next state in which A is (A + m
+ C) mod 256, C is whether that sum exceeds 255, V whether the signed sum lies outside -128 to 127, Z and N follow
the result, CYC has grown to the rule's total, and every other field is unchanged; with D set it answers
DecimalModeFault; the opcode bytes are the rule's. Formalises R121. -/
def Obligations.AdcAddsOrFaultsInDecimalMode : Prop :=
  ∀ (b : Byte) (w : Addr) (s : State), ∀ r ∈ Forms.adc b w, opcodeByte r.instr = r.opcode ∧
    (s.flag .D = true → exec r.instr s = .fault .decimalMode) ∧
    (s.flag .D = false →
      let m := sourceValue r.src s
      let sum := s.a.toNat + m.toNat + (s.flag .C).toNat
      let signed := s.a.toInt + m.toInt + (s.flag .C).toNat
      exec r.instr s = .next
        { s with
          a := BitVec.ofNat 8 (sum % 256)
          p := setZN (BitVec.ofNat 8 (sum % 256))
            (setFlag .V (decide (signed < -128 ∨ 127 < signed)) (setFlag .C (decide (255 < sum)) s.p))
          cyc := r.cycAfter s })

/-- For every form of SBC, every operand and every state: with D clear, exec answers the next state in which A is (A - m
- (1 - C)) mod 256, C is whether A >= m + (1 - C) as unsigned integers, V whether the signed difference lies outside
-128 to 127, Z and N follow the result, CYC has grown to the rule's total, and every other field is unchanged; with
D set it answers DecimalModeFault; the opcode bytes are the rule's. Formalises R122. -/
def Obligations.SbcSubtractsOrFaultsInDecimalMode : Prop :=
  ∀ (b : Byte) (w : Addr) (s : State), ∀ r ∈ Forms.sbc b w, opcodeByte r.instr = r.opcode ∧
    (s.flag .D = true → exec r.instr s = .fault .decimalMode) ∧
    (s.flag .D = false →
      let m := sourceValue r.src s
      let borrow := 1 - (s.flag .C).toNat
      let signed := s.a.toInt - m.toInt - borrow
      let q : Byte := BitVec.ofNat 8 ((s.a.toNat + 512 - m.toNat - borrow) % 256)
      exec r.instr s = .next
        { s with
          a := q
          p := setZN q
            (setFlag .V (decide (signed < -128 ∨ 127 < signed)) (setFlag .C (decide (m.toNat + borrow ≤ s.a.toNat)) s.p))
          cyc := r.cycAfter s })

/-- For every form of CMP, CPX and CPY, every operand and every state: exec answers the next state in which C is whether
the register is at least the operand (unsigned), Z whether they are equal, N bit 7 of their difference modulo 256,
CYC has grown to the rule's total, and every other flag and field, the register among them, is unchanged; D is not
read; the opcode bytes are the rules'. Formalises R124, R125, R126, R127. -/
def Obligations.CompareWritesCarryZeroNegative : Prop :=
  ∀ (b : Byte) (w : Addr) (s : State),
    (∀ r ∈ Forms.cmp b w, opcodeByte r.instr = r.opcode ∧
      exec r.instr s = .next { s with p := setFlag .N ((s.a - sourceValue r.src s).getLsbD 7) (setFlag .Z (decide (s.a = sourceValue r.src s))
          (setFlag .C (decide ((sourceValue r.src s).toNat ≤ s.a.toNat)) s.p)), cyc := r.cycAfter s }) ∧
    (∀ r ∈ Forms.cpx b w, opcodeByte r.instr = r.opcode ∧
      exec r.instr s = .next { s with p := setFlag .N ((s.x - sourceValue r.src s).getLsbD 7) (setFlag .Z (decide (s.x = sourceValue r.src s))
          (setFlag .C (decide ((sourceValue r.src s).toNat ≤ s.x.toNat)) s.p)), cyc := r.cycAfter s }) ∧
    (∀ r ∈ Forms.cpy b w, opcodeByte r.instr = r.opcode ∧
      exec r.instr s = .next { s with p := setFlag .N ((s.y - sourceValue r.src s).getLsbD 7) (setFlag .Z (decide (s.y = sourceValue r.src s))
          (setFlag .C (decide ((sourceValue r.src s).toNat ≤ s.y.toNat)) s.p)), cyc := r.cycAfter s })

/-- For every form of AND, ORA and EOR, every operand and every state: exec answers the next state in which A is the
bitwise and, or, exclusive or of A and the operand, P is SetZN of it, CYC has grown to the rule's total, and every
other field is unchanged; the opcode bytes are the rules'. Formalises R128, R129, R130. -/
def Obligations.LogicOperatesOnA : Prop :=
  ∀ (b : Byte) (w : Addr) (s : State),
    (∀ r ∈ Forms.and b w, opcodeByte r.instr = r.opcode ∧
      exec r.instr s = .next { s with a := s.a &&& sourceValue r.src s, p := setZN (s.a &&& sourceValue r.src s) s.p, cyc := r.cycAfter s }) ∧
    (∀ r ∈ Forms.ora b w, opcodeByte r.instr = r.opcode ∧
      exec r.instr s = .next { s with a := s.a ||| sourceValue r.src s, p := setZN (s.a ||| sourceValue r.src s) s.p, cyc := r.cycAfter s }) ∧
    (∀ r ∈ Forms.eor b w, opcodeByte r.instr = r.opcode ∧
      exec r.instr s = .next { s with a := s.a ^^^ sourceValue r.src s, p := setZN (s.a ^^^ sourceValue r.src s) s.p, cyc := r.cycAfter s })

/-- For both forms of BIT, every operand and every state: exec answers the next state in which Z is whether the bitwise
and of A and the operand is 0, V is bit 6 and N bit 7 of the operand, CYC has grown to the rule's total, and every
other flag and field is unchanged; the opcode bytes are the rule's. Formalises R131. -/
def Obligations.BitTestsTheOperand : Prop :=
  ∀ (b : Byte) (w : Addr) (s : State),
    (∀ r ∈ Forms.bit b w, opcodeByte r.instr = r.opcode ∧
      exec r.instr s = .next { s with p := setFlag .N ((sourceValue r.src s).getLsbD 7) (setFlag .V ((sourceValue r.src s).getLsbD 6)
          (setFlag .Z (decide (s.a &&& sourceValue r.src s = 0)) s.p)), cyc := r.cycAfter s })

/-! ### Shifts, rotates and branches -/

/-- For every state the accumulator forms answer the next state in which A is 2A mod 256, A / 2, 2A mod 256 plus the old
carry, A / 2 plus 128 times the old carry; C is bit 7 of A for the left and bit 0 for the right shifts; Z and N
follow the result; CYC is one more than after the fetch; every other field is unchanged. Derived from R170, R171,
R172, R173. -/
def Obligations.ShiftsAndRotatesOnA : Prop :=
  ∀ s : State,
    let v := s.a.toNat
    (opcodeByte .aslAcc = 0x0A ∧
      (let q : Byte := BitVec.ofNat 8 ((2 * v) % 256)
       exec .aslAcc s = .next { s with a := q, p := setZN q (setFlag .C (decide (128 ≤ v)) s.p), cyc := s.cyc + 1 })) ∧
    (opcodeByte .lsrAcc = 0x4A ∧
      (let q : Byte := BitVec.ofNat 8 (v / 2)
       exec .lsrAcc s = .next { s with a := q, p := setZN q (setFlag .C (decide (v % 2 = 1)) s.p), cyc := s.cyc + 1 })) ∧
    (opcodeByte .rolAcc = 0x2A ∧
      (let q : Byte := BitVec.ofNat 8 ((2 * v) % 256 + (s.flag .C).toNat)
       exec .rolAcc s = .next { s with a := q, p := setZN q (setFlag .C (decide (128 ≤ v)) s.p), cyc := s.cyc + 1 })) ∧
    (opcodeByte .rorAcc = 0x6A ∧
      (let q : Byte := BitVec.ofNat 8 (v / 2 + 128 * (s.flag .C).toNat)
       exec .rorAcc s = .next { s with a := q, p := setZN q (setFlag .C (decide (v % 2 = 1)) s.p), cyc := s.cyc + 1 }))

/-- For every memory form of ASL, LSR, ROL and ROR, every operand and every state: exec answers the next state in which
the byte v at the effective address is replaced by 2v mod 256, v / 2, 2v mod 256 plus the old carry, v / 2 plus 128
times the old carry; C is bit 7 of v for the left and bit 0 for the right shifts; Z and N follow the byte written;
CYC has grown to the rule's total; every other field is unchanged; the opcode bytes are the rules'. Derived from
R170, R171, R172, R173. -/
def Obligations.ShiftsAndRotatesOnMemory : Prop :=
  ∀ (b : Byte) (w : Addr) (s : State),
    (∀ r ∈ Forms.asl b w, opcodeByte r.instr = r.opcode ∧
      (let v := (s.byteAt (effAddr r.mem s)).toNat
       let q : Byte := BitVec.ofNat 8 ((2 * v) % 256)
       exec r.instr s = .next
        { s with mem := s.mem.write (effAddr r.mem s).toNat q, p := setZN q (setFlag .C (decide (128 ≤ v)) s.p), cyc := r.cycAfter s })) ∧
    (∀ r ∈ Forms.lsr b w, opcodeByte r.instr = r.opcode ∧
      (let v := (s.byteAt (effAddr r.mem s)).toNat
       let q : Byte := BitVec.ofNat 8 (v / 2)
       exec r.instr s = .next
        { s with mem := s.mem.write (effAddr r.mem s).toNat q, p := setZN q (setFlag .C (decide (v % 2 = 1)) s.p), cyc := r.cycAfter s })) ∧
    (∀ r ∈ Forms.rol b w, opcodeByte r.instr = r.opcode ∧
      (let v := (s.byteAt (effAddr r.mem s)).toNat
       let q : Byte := BitVec.ofNat 8 ((2 * v) % 256 + (s.flag .C).toNat)
       exec r.instr s = .next
        { s with mem := s.mem.write (effAddr r.mem s).toNat q, p := setZN q (setFlag .C (decide (128 ≤ v)) s.p), cyc := r.cycAfter s })) ∧
    (∀ r ∈ Forms.ror b w, opcodeByte r.instr = r.opcode ∧
      (let v := (s.byteAt (effAddr r.mem s)).toNat
       let q : Byte := BitVec.ofNat 8 (v / 2 + 128 * (s.flag .C).toNat)
       exec r.instr s = .next
        { s with mem := s.mem.write (effAddr r.mem s).toNat q, p := setZN q (setFlag .C (decide (v % 2 = 1)) s.p), cyc := r.cycAfter s }))

/-- For each of the eight branches, every offset byte and every state (PC holding the next instruction's address): if
the flag tested has the branch's value, the next state has PC = (PC + sext_8(offset)) mod 65536 and one cycle more,
two if the high byte of PC changed; otherwise it is the state itself; every other field is unchanged; the opcode
bytes are the rules'. What the spec marks as general knowledge in these rules is log 10. Formalises R174, R175,
R176, R177, R178, R179, R180, R181, R182. -/
def Obligations.BranchesTestOneFlag : Prop :=
  ∀ (rel8 : Byte) (s : State), ∀ r ∈ Forms.branches rel8, opcodeByte r.instr = r.opcode ∧
    (s.flag r.flag ≠ r.value → exec r.instr s = .next s) ∧
    (s.flag r.flag = r.value →
      ∃ target : Addr, (target.toNat : Int) = ((s.pc.toNat : Int) + rel8.toInt) % 65536 ∧
        exec r.instr s = .next
          { s with pc := target, cyc := s.cyc + if target.toNat / 256 = s.pc.toNat / 256 then 1 else 2 })

/-! ### Stack, jumps, subroutines, interrupts -/

/-- For every state and operand: JMP absolute changes only PC, to the operand; JMP indirect changes PC to the word whose
low byte is read at the pointer and whose high byte is read at the next address, or, when JMP_IND_PAGE_WRAP is wrap
and the pointer's low byte is 0xFF, at the start of the pointer's page; it spends two cycles more than its fetch;
nothing else changes. What the spec marks as general knowledge in these rules is log 10. Formalises R200, R201. -/
def Obligations.JumpsLoadPC : Prop :=
  ∀ (w : Addr) (s : State),
    (opcodeByte (.jmpAbs w) = 0x4C ∧ exec (.jmpAbs w) s = .next { s with pc := w }) ∧
    (opcodeByte (.jmpInd w) = 0x6C ∧ exec (.jmpInd w) s = .next
      { s with
        pc := word16 (s.mem.read (match s.cfg.jmpIndPageWrap with
          | .wrap => w.toNat / 256 * 256 + (w.toNat + 1) % 256
          | .carry => (w.toNat + 1) % 65536)) (s.mem.read w.toNat)
        cyc := s.cyc + 2 })

/-- For every state with canonical memory and word: after Push16 the byte at 0x0100 | SP is the high byte, the byte at
0x0100 | (SP - 1 mod 256) the low byte, SP is two less modulo 256 and every other byte is unchanged; Pop16 then
gives the word and the old SP. Derived from R190, R191, R192, R193. -/
def Obligations.PushAndPopAreInverse : Prop :=
  ∀ (s : State) (w : Addr), s.mem.wf = true →
    (push16 w s).byteAt (0x0100 ||| s.sp.setWidth 16) = hiByte w ∧
    (push16 w s).byteAt (0x0100 ||| (s.sp - 1).setWidth 16) = loByte w ∧
    (push16 w s).sp = s.sp - 2 ∧
    (∀ addr : Addr, addr ≠ 0x0100 ||| s.sp.setWidth 16 → addr ≠ 0x0100 ||| (s.sp - 1).setWidth 16 →
      (push16 w s).byteAt addr = s.byteAt addr) ∧
    (pop16 (push16 w s)).1 = w ∧ (pop16 (push16 w s)).2.sp = s.sp

/-- For every state PHA and PHP answer the next state in which the byte at 0x0100 | SP is A, or P with bits 4 and 5 set,
SP is one less modulo 256, CYC is two more than after the fetch, and every other field, P among them, is unchanged;
the opcode bytes are the rules'. What the spec marks as general knowledge in these rules is log 10. Formalises R196,
R197. -/
def Obligations.PushesWriteOneByte : Prop :=
  ∀ s : State,
    (opcodeByte .pha = 0x48 ∧ exec .pha s = .next
      { s with mem := s.mem.write (256 + s.sp.toNat) s.a, sp := s.sp - 1, cyc := s.cyc + 2 }) ∧
    (opcodeByte .php = 0x08 ∧ exec .php s = .next
      { s with mem := s.mem.write (256 + s.sp.toNat) (s.p ||| 0x30), sp := s.sp - 1, cyc := s.cyc + 2 })

/-- For every state, with v the byte at 0x0100 | (SP + 1 mod 256): PLA answers the next state with A = v and P =
SetZN(v); PLP with P = (v and 0xCF) or (P and 0x30); SP is one more modulo 256, CYC is three more than after the
fetch, every other field is unchanged; the opcode bytes are the rules'. What the spec marks as general knowledge in
these rules is log 10. Formalises R198, R199. -/
def Obligations.PullsReadOneByte : Prop :=
  ∀ s : State,
    let v := s.byteAt (0x0100 + (s.sp + 1).setWidth 16)
    (opcodeByte .pla = 0x68 ∧ exec .pla s = .next
      { s with a := v, p := setZN v s.p, sp := s.sp + 1, cyc := s.cyc + 3 }) ∧
    (opcodeByte .plp = 0x28 ∧ exec .plp s = .next
      { s with p := (v &&& 0xCF) ||| (s.p &&& 0x30), sp := s.sp + 1, cyc := s.cyc + 3 })

/-- For every state (PC holding the next instruction's address) and target: JSR answers the next state in which the high
byte of PC - 1 (modulo 65536) is written at 0x0100 | SP and then its low byte at 0x0100 | (SP - 1 mod 256), SP is
two less modulo 256, PC is the target, CYC is three more than after the fetch, and every other field is unchanged;
the opcode byte is 0x20. What the spec marks as general knowledge in these rules is log 10. Formalises R202. -/
def Obligations.JsrPushesTheAddressOfItsLastByte : Prop :=
  ∀ (target : Addr) (s : State), opcodeByte (.jsr target) = 0x20 ∧
    exec (.jsr target) s = .next
      { s with
        mem := (s.mem.write (256 + s.sp.toNat) (hiByte (s.pc - 1))).write (256 + (s.sp - 1).toNat) (loByte (s.pc - 1))
        sp := s.sp - 2, pc := target, cyc := s.cyc + 3 }

/-- For every state RTS answers the next state in which PC is the little-endian word at stack addresses SP + 1 and SP +
2 (each modulo 256 in page one) plus 1 modulo 65536, SP is two more modulo 256, CYC is five more than after the
fetch, and every other field is unchanged; and RTS run after a JSR from a state with canonical memory, whatever PC
its own fetch left, ends with the PC and SP that the JSR started from. What the spec marks as general knowledge in
these rules is log 10. Formalises R203. -/
def Obligations.RtsPopsPCAndAddsOne : Prop :=
  (∀ s : State, opcodeByte .rts = 0x60 ∧ exec .rts s = .next
    { s with
      pc := word16 (s.byteAt (stackAddr (s.sp + 2))) (s.byteAt (stackAddr (s.sp + 1))) + 1
      sp := s.sp + 2, cyc := s.cyc + 5 }) ∧
  ∀ (s : State) (target fetched : Addr), s.mem.wf = true →
    ∃ t u : State, exec (.jsr target) s = .next t ∧ exec .rts { t with pc := fetched } = .next u ∧
      u.pc = s.pc ∧ u.sp = s.sp

/-- For every state (PC holding BRK's address + 1) BRK answers the next state in which the high and low byte of PC + 1
and the byte P with bits 4 and 5 set are written, in this order, at the stack addresses SP, SP - 1 and SP - 2 modulo
256, SP is three less modulo 256, PC is the little-endian word at 0xFFFE, the live P has B and I set and every other
bit as before, CYC is six more than after the fetch, and every other field is unchanged, whatever P.I holds; the
opcode byte is 0x00. That the address pushed is BRK's + 2 is the spec's decision D15, and the byte order of the push
its decision D7 (log 10). Derived from R204, R255. -/
def Obligations.BrkTakesTheInterrupt : Prop :=
  ∀ s : State, opcodeByte .brk = 0x00 ∧
    exec .brk s = .next
      { s with
        mem := ((s.mem.write (256 + s.sp.toNat) (hiByte (s.pc + 1))).write (256 + (s.sp - 1).toNat)
          (loByte (s.pc + 1))).write (256 + (s.sp - 2).toNat) (s.p ||| 0x30)
        sp := s.sp - 3
        pc := word16 (s.byteAt 0xFFFF) (s.byteAt 0xFFFE)
        p := s.p ||| 0x14
        cyc := s.cyc + 6 }

/-- For every state, with v the byte at stack address SP + 1 modulo 256: RTI answers the next state in which P is (v and
0xCF) or (P and 0x20), so that B is 0, PC is the little-endian word at stack addresses SP + 2 and SP + 3, SP is
three more modulo 256, CYC is five more than after the fetch, and every other field is unchanged; the opcode byte is
0x40. What the spec marks as general knowledge in these rules is log 10. Formalises R205. -/
def Obligations.RtiReturnsFromTheInterrupt : Prop :=
  ∀ s : State, opcodeByte .rti = 0x40 ∧
    exec .rti s = .next
      { s with
        p := (s.byteAt (stackAddr (s.sp + 1)) &&& 0xCF) ||| (s.p &&& 0x20)
        pc := word16 (s.byteAt (stackAddr (s.sp + 3))) (s.byteAt (stackAddr (s.sp + 2)))
        sp := s.sp + 3, cyc := s.cyc + 5 }

/-- For every state with canonical memory, BRK's next state t, and every state h with t's SP, with t's bytes in the
three stack slots and with t's bit 5 of P (its A, X, Y, PC, other flags and other memory free): RTI from h ends with
PC = BRK's address + 2, SP as before the BRK, and P as before it but for B, which is 0. Derived from R256, R255. -/
def Obligations.RtiUndoesBrk : Prop :=
  ∀ s t h : State, s.mem.wf = true → exec .brk s = .next t →
    h.sp = t.sp → unusedBit h.p = unusedBit t.p →
    (∀ k : Byte, k ∈ [1, 2, 3] → h.byteAt (stackAddr (t.sp + k)) = t.byteAt (stackAddr (t.sp + k))) →
    ∃ u : State, exec .rti h = .next u ∧ u.pc = s.pc + 1 ∧ u.sp = s.sp ∧ u.p = setFlag .B false s.p

/-- For each of the seven flag instructions and every state, exec answers the next state in which P is set_flag of the
flag and value the rule names, CYC is one more than after the fetch, and every other field is unchanged; NOP changes
CYC alone, by one; the opcode bytes are the rules'. What the spec marks as general knowledge in these rules is log
10. Formalises R220, R221, R222, R223, R224, R225, R226, R227. -/
def Obligations.FlagInstructionsWriteOneFlag : Prop :=
  ∀ s : State,
    (∀ r ∈ Forms.flagSetters, opcodeByte r.instr = r.opcode ∧
      exec r.instr s = .next { s with p := setFlag r.flag r.value s.p, cyc := s.cyc + 1 }) ∧
    opcodeByte .nop = 0xEA ∧ exec .nop s = .next { s with cyc := s.cyc + 1 }

/-! ### Frames and whole-machine rules -/

/-- For every instruction that is not STA, STX, STY, INC, DEC, a shift or rotate on memory, PHA, PHP, JSR or BRK, and
for the accumulator forms of the shifts and rotates: when exec answers a next state, every address reads as before.
Derived from R66, 20_memory.md. -/
def Obligations.OnlyStoringFormsChangeMemory : Prop :=
  ∀ (i : Instr) (s t : State), exec i s = .next t → (i.mnemonic ∉ Forms.storing ∨ i.operand = .acc) →
    ∀ addr : Addr, t.byteAt addr = s.byteAt addr

/-- For every STA, STX, STY, INC, DEC, ASL, LSR, ROL, ROR with a memory operand and every state: exec answers a next
state; every address other than the one the store-flavoured resolver gives reads as before; A, X, Y, SP and PC are
unchanged; a store changes no flag, INC and DEC change Z and N only, the shifts and rotates C, Z and N only; bit 5
of P is unchanged. Derived from R51, R111, 20_memory.md. -/
def Obligations.StoringFormsChangeOneByte : Prop :=
  ∀ (i : Instr) (m : MemOperand) (s : State), i.operand = .mem m →
    i.mnemonic ∈ [.STA, .STX, .STY, .INC, .DEC, .ASL, .LSR, .ROL, .ROR] →
    ∃ t : State, exec i s = .next t ∧
      (∀ addr : Addr, addr ≠ (resolve .store m s).1 → t.byteAt addr = s.byteAt addr) ∧
      t.a = s.a ∧ t.x = s.x ∧ t.y = s.y ∧ t.sp = s.sp ∧ t.pc = s.pc ∧ unusedBit t.p = unusedBit s.p ∧
      (i.mnemonic ∈ [.STA, .STX, .STY] → t.p = s.p) ∧
      (i.mnemonic ∈ [.INC, .DEC] → ∀ f : Flag, f ≠ .Z → f ≠ .N → t.flag f = s.flag f) ∧
      (∀ f : Flag, f ≠ .C → f ≠ .Z → f ≠ .N → t.flag f = s.flag f)

/-- For every state and each of PHA, PHP (one slot), JSR (two), BRK (three): exec answers a next state in which every
address that is not one of the slots 0x0100 | SP downwards (SP wrapping modulo 256) reads as before, A, X, Y and
every flag but BRK's B and I are unchanged, and SP is lower by the number of slots modulo 256. Derived from R190,
R192, R196, R197, R202, R204. -/
def Obligations.PushingFormsChangeTheStackSlotsOnly : Prop :=
  ∀ (target : Addr) (s : State), ∀ q ∈ [(Instr.pha, 1), (.php, 1), (.jsr target, 2), (.brk, 3)],
    ∃ t : State, exec q.1 s = .next t ∧
      (∀ addr : Addr, (∀ k : Nat, k < q.2 → addr ≠ stackAddr (s.sp - BitVec.ofNat 8 k)) →
        t.byteAt addr = s.byteAt addr) ∧
      t.a = s.a ∧ t.x = s.x ∧ t.y = s.y ∧ t.sp = s.sp - BitVec.ofNat 8 q.2 ∧
      (∀ f : Flag, t.flag f = if q.1 = .brk ∧ (f = .B ∨ f = .I) then true else s.flag f)

/-- For every instruction and state with a next state: if A, X, Y or SP differs, the instruction is one the rules list
as writing that register, and for A a shift or rotate only in its accumulator form; if PC differs (from the next
instruction's address), it is a branch, JMP, JSR, RTS, BRK or RTI; the parameters (the model's own field, log 3) are
unchanged. Derived from R22, R25, R24. -/
def Obligations.OnlyTheListedInstructionsWriteEachRegister : Prop :=
  ∀ (i : Instr) (s t : State), exec i s = .next t →
    (t.a ≠ s.a → i.mnemonic ∈ Forms.writesA ∧ (i.mnemonic ∈ [.ASL, .LSR, .ROL, .ROR] → i.operand = .acc)) ∧
    (t.x ≠ s.x → i.mnemonic ∈ Forms.writesX) ∧ (t.y ≠ s.y → i.mnemonic ∈ Forms.writesY) ∧
    (t.sp ≠ s.sp → i.mnemonic ∈ Forms.writesSP) ∧ (t.pc ≠ s.pc → i.mnemonic ∈ Forms.writesPC) ∧ t.cfg = s.cfg

/-- For every instruction and state with a next state: if a flag differs, the instruction is one that the rule of that
flag lists as writing it, and bit 5 of P never differs. Derived from R27, R28, R29, R30, R31, R32, R33, R34. -/
def Obligations.OnlyTheListedInstructionsWriteEachFlag : Prop :=
  ∀ (i : Instr) (s t : State), exec i s = .next t →
    (∀ f : Flag, t.flag f ≠ s.flag f → i.mnemonic ∈ Forms.writesFlag f) ∧ unusedBit t.p = unusedBit s.p

/-- For every state whose step answers no next state, its list of port accesses is the one read of the byte at PC; and a
step answers no next state exactly when that byte is an unknown opcode, or the bytes at PC decode to an ADC or SBC
of any form and P.D is 1. That the decimal-mode check stands before any operand access is the spec's decision D4
(logs 5 and 10). Derived from R64, R232, R123. -/
def Obligations.StoppingStepsReadOnlyTheOpcodeByte : Prop :=
  ∀ s : State,
    ((∀ t, step s ≠ .next t) → stepAccesses s = [.read s.pc (s.byteAt s.pc)]) ∧
    ((∀ t, step s ≠ .next t) ↔
      s.byteAt s.pc ∈ Forms.unknownOpcodes ∨
      ∃ i rest, decode (bytesFrom s 3 s.pc) = .instr i rest ∧ isDecimalSensitive i = true ∧ s.flag .D = true)
end

