-- ==== Sys2Proof/Laws/Flags.lean ====
section
/-!
SUPPORT. The status register: what each flag reads as after each operation on it, and that bit 5 is never set.
-/

namespace Sys2Proof.Machine

theorem Flag.bit_lt (f : Flag) : f.bit < 8 := by cases f <;> decide

theorem Flag.bit_injective {f g : Flag} (h : f.bit = g.bit) : f = g := by
  cases f <;> cases g <;> first | rfl | exact absurd h (by decide)

theorem Flag.bit_ne_five (f : Flag) : f.bit ≠ 5 := by cases f <;> decide

theorem Flag.mask_getLsbD (f : Flag) (i : Nat) : f.mask.getLsbD i = decide (i = f.bit) := by
  have hf := f.bit_lt
  rw [Bool.eq_iff_iff]
  simp only [Flag.mask, BitVec.getLsbD_shiftLeft, BitVec.getLsbD_one, Bool.and_eq_true, Bool.not_eq_true',
    decide_eq_true_eq, decide_eq_false_iff_not]
  omega

/-- `set_flag` changes one bit: bit by bit. -/
theorem setFlag_getLsbD (f : Flag) (b : Bool) (p : Byte) {i : Nat} (hi : i < 8) :
    (setFlag f b p).getLsbD i = if i = f.bit then b else p.getLsbD i := by
  cases b <;>
    simp only [setFlag, if_true, if_false, Bool.false_eq_true, BitVec.getLsbD_or, BitVec.getLsbD_and,
      BitVec.getLsbD_not, Flag.mask_getLsbD] <;>
    by_cases h : i = f.bit <;> simp [h, hi]

@[simp] theorem getFlag_setFlag_same (f : Flag) (b : Bool) (p : Byte) : getFlag f (setFlag f b p) = b := by
  rw [getFlag, setFlag_getLsbD f b p f.bit_lt, if_pos rfl]

theorem getFlag_setFlag_of_ne {f g : Flag} (h : g ≠ f) (b : Bool) (p : Byte) :
    getFlag g (setFlag f b p) = getFlag g p := by
  rw [getFlag, setFlag_getLsbD f b p g.bit_lt, if_neg fun e => h (Flag.bit_injective e), getFlag]

/-- Every flag after a `set_flag`. -/
@[simp] theorem getFlag_setFlag (g f : Flag) (b : Bool) (p : Byte) :
    getFlag g (setFlag f b p) = if g = f then b else getFlag g p := by
  split
  · rename_i h; subst h; exact getFlag_setFlag_same g b p
  · rename_i h; exact getFlag_setFlag_of_ne h b p

@[simp] theorem setFlag_unusedBit (f : Flag) (b : Bool) (p : Byte) : unusedBit (setFlag f b p) = unusedBit p := by
  rw [unusedBit, setFlag_getLsbD f b p (by decide), if_neg f.bit_ne_five.symm, unusedBit]

@[simp] theorem setZN_unusedBit (v p : Byte) : unusedBit (setZN v p) = unusedBit p := by simp [setZN]

/-- Every flag after `SetZN`. -/
@[simp] theorem getFlag_setZN (g : Flag) (v p : Byte) :
    getFlag g (setZN v p) = if g = .N then v.msb else if g = .Z then v == 0 else getFlag g p := by
  simp [setZN]

@[simp] theorem setCVZN_unusedBit (c v : Bool) (r p : Byte) : unusedBit (setCVZN c v r p) = unusedBit p := by simp [setCVZN]

@[simp] theorem compareStatus_unusedBit (reg m p : Byte) : unusedBit (compareStatus reg m p) = unusedBit p := by
  simp [compareStatus]

@[simp] theorem bitStatus_unusedBit (a m p : Byte) : unusedBit (bitStatus a m p) = unusedBit p := by simp [bitStatus]

@[simp] theorem pulledStatus_unusedBit (v p : Byte) : unusedBit (pulledStatus v p) = unusedBit p := by
  simp [unusedBit, pulledStatus]

/-- The status functions a read-modify-write operation may have: none touches bit 5. -/
def ModifyFn.KeepsUnusedBit (f : ModifyFn) : Prop := ∀ v p, unusedBit (f v p).2 = unusedBit p

theorem incFn_keepsUnusedBit : ModifyFn.KeepsUnusedBit incFn := fun v p => by simp [incFn]
theorem decFn_keepsUnusedBit : ModifyFn.KeepsUnusedBit decFn := fun v p => by simp [decFn]
theorem aslFn_keepsUnusedBit : ModifyFn.KeepsUnusedBit aslFn := fun v p => by simp [aslFn, shifted]
theorem lsrFn_keepsUnusedBit : ModifyFn.KeepsUnusedBit lsrFn := fun v p => by simp [lsrFn, shifted]
theorem rolFn_keepsUnusedBit : ModifyFn.KeepsUnusedBit rolFn := fun v p => by simp [rolFn, shifted]
theorem rorFn_keepsUnusedBit : ModifyFn.KeepsUnusedBit rorFn := fun v p => by simp [rorFn, shifted]

/-- Every flag after a pull: bits 4 and 5 keep their live values. -/
theorem getFlag_pulledStatus (g : Flag) (v p : Byte) :
    getFlag g (pulledStatus v p) = if g = .B then getFlag .B p else getFlag g v := by
  cases g <;> simp [getFlag, pulledStatus, Flag.bit]

/-- A pull of what a push pushed gives the six flags back. -/
theorem pulledStatus_pushedStatus (p q : Byte) : pulledStatus (pushedStatus p) q = (p &&& 0xCF) ||| (q &&& 0x30) := by
  ext i hi
  simp only [pulledStatus, pushedStatus, BitVec.getElem_or, BitVec.getElem_and]
  interval_cases i <;> simp

end Sys2Proof.Machine
end

