-- ==== Sys2Proof/Laws/State.lean ====
section
/-!
SUPPORT. One lemma per field per named update of State, so that no proof unfolds a record update; then the same for the
updates built from them, and for reading a byte of memory.
-/

namespace Sys2Proof.Machine

@[simp] theorem State.setA_a (v : Byte) (s : State) : (s.setA v).a = v := rfl
@[simp] theorem State.setA_x (v : Byte) (s : State) : (s.setA v).x = s.x := rfl
@[simp] theorem State.setA_y (v : Byte) (s : State) : (s.setA v).y = s.y := rfl
@[simp] theorem State.setA_sp (v : Byte) (s : State) : (s.setA v).sp = s.sp := rfl
@[simp] theorem State.setA_p (v : Byte) (s : State) : (s.setA v).p = s.p := rfl
@[simp] theorem State.setA_pc (v : Byte) (s : State) : (s.setA v).pc = s.pc := rfl
@[simp] theorem State.setA_cyc (v : Byte) (s : State) : (s.setA v).cyc = s.cyc := rfl
@[simp] theorem State.setA_mem (v : Byte) (s : State) : (s.setA v).mem = s.mem := rfl
@[simp] theorem State.setA_cfg (v : Byte) (s : State) : (s.setA v).cfg = s.cfg := rfl

@[simp] theorem State.setX_a (v : Byte) (s : State) : (s.setX v).a = s.a := rfl
@[simp] theorem State.setX_x (v : Byte) (s : State) : (s.setX v).x = v := rfl
@[simp] theorem State.setX_y (v : Byte) (s : State) : (s.setX v).y = s.y := rfl
@[simp] theorem State.setX_sp (v : Byte) (s : State) : (s.setX v).sp = s.sp := rfl
@[simp] theorem State.setX_p (v : Byte) (s : State) : (s.setX v).p = s.p := rfl
@[simp] theorem State.setX_pc (v : Byte) (s : State) : (s.setX v).pc = s.pc := rfl
@[simp] theorem State.setX_cyc (v : Byte) (s : State) : (s.setX v).cyc = s.cyc := rfl
@[simp] theorem State.setX_mem (v : Byte) (s : State) : (s.setX v).mem = s.mem := rfl
@[simp] theorem State.setX_cfg (v : Byte) (s : State) : (s.setX v).cfg = s.cfg := rfl

@[simp] theorem State.setY_a (v : Byte) (s : State) : (s.setY v).a = s.a := rfl
@[simp] theorem State.setY_x (v : Byte) (s : State) : (s.setY v).x = s.x := rfl
@[simp] theorem State.setY_y (v : Byte) (s : State) : (s.setY v).y = v := rfl
@[simp] theorem State.setY_sp (v : Byte) (s : State) : (s.setY v).sp = s.sp := rfl
@[simp] theorem State.setY_p (v : Byte) (s : State) : (s.setY v).p = s.p := rfl
@[simp] theorem State.setY_pc (v : Byte) (s : State) : (s.setY v).pc = s.pc := rfl
@[simp] theorem State.setY_cyc (v : Byte) (s : State) : (s.setY v).cyc = s.cyc := rfl
@[simp] theorem State.setY_mem (v : Byte) (s : State) : (s.setY v).mem = s.mem := rfl
@[simp] theorem State.setY_cfg (v : Byte) (s : State) : (s.setY v).cfg = s.cfg := rfl

@[simp] theorem State.setSp_a (v : Byte) (s : State) : (s.setSp v).a = s.a := rfl
@[simp] theorem State.setSp_x (v : Byte) (s : State) : (s.setSp v).x = s.x := rfl
@[simp] theorem State.setSp_y (v : Byte) (s : State) : (s.setSp v).y = s.y := rfl
@[simp] theorem State.setSp_sp (v : Byte) (s : State) : (s.setSp v).sp = v := rfl
@[simp] theorem State.setSp_p (v : Byte) (s : State) : (s.setSp v).p = s.p := rfl
@[simp] theorem State.setSp_pc (v : Byte) (s : State) : (s.setSp v).pc = s.pc := rfl
@[simp] theorem State.setSp_cyc (v : Byte) (s : State) : (s.setSp v).cyc = s.cyc := rfl
@[simp] theorem State.setSp_mem (v : Byte) (s : State) : (s.setSp v).mem = s.mem := rfl
@[simp] theorem State.setSp_cfg (v : Byte) (s : State) : (s.setSp v).cfg = s.cfg := rfl

@[simp] theorem State.setP_a (v : Byte) (s : State) : (s.setP v).a = s.a := rfl
@[simp] theorem State.setP_x (v : Byte) (s : State) : (s.setP v).x = s.x := rfl
@[simp] theorem State.setP_y (v : Byte) (s : State) : (s.setP v).y = s.y := rfl
@[simp] theorem State.setP_sp (v : Byte) (s : State) : (s.setP v).sp = s.sp := rfl
@[simp] theorem State.setP_p (v : Byte) (s : State) : (s.setP v).p = v := rfl
@[simp] theorem State.setP_pc (v : Byte) (s : State) : (s.setP v).pc = s.pc := rfl
@[simp] theorem State.setP_cyc (v : Byte) (s : State) : (s.setP v).cyc = s.cyc := rfl
@[simp] theorem State.setP_mem (v : Byte) (s : State) : (s.setP v).mem = s.mem := rfl
@[simp] theorem State.setP_cfg (v : Byte) (s : State) : (s.setP v).cfg = s.cfg := rfl

@[simp] theorem State.setPc_a (v : Addr) (s : State) : (s.setPc v).a = s.a := rfl
@[simp] theorem State.setPc_x (v : Addr) (s : State) : (s.setPc v).x = s.x := rfl
@[simp] theorem State.setPc_y (v : Addr) (s : State) : (s.setPc v).y = s.y := rfl
@[simp] theorem State.setPc_sp (v : Addr) (s : State) : (s.setPc v).sp = s.sp := rfl
@[simp] theorem State.setPc_p (v : Addr) (s : State) : (s.setPc v).p = s.p := rfl
@[simp] theorem State.setPc_pc (v : Addr) (s : State) : (s.setPc v).pc = v := rfl
@[simp] theorem State.setPc_cyc (v : Addr) (s : State) : (s.setPc v).cyc = s.cyc := rfl
@[simp] theorem State.setPc_mem (v : Addr) (s : State) : (s.setPc v).mem = s.mem := rfl
@[simp] theorem State.setPc_cfg (v : Addr) (s : State) : (s.setPc v).cfg = s.cfg := rfl

@[simp] theorem State.setMem_a (m : Memory) (s : State) : (s.setMem m).a = s.a := rfl
@[simp] theorem State.setMem_x (m : Memory) (s : State) : (s.setMem m).x = s.x := rfl
@[simp] theorem State.setMem_y (m : Memory) (s : State) : (s.setMem m).y = s.y := rfl
@[simp] theorem State.setMem_sp (m : Memory) (s : State) : (s.setMem m).sp = s.sp := rfl
@[simp] theorem State.setMem_p (m : Memory) (s : State) : (s.setMem m).p = s.p := rfl
@[simp] theorem State.setMem_pc (m : Memory) (s : State) : (s.setMem m).pc = s.pc := rfl
@[simp] theorem State.setMem_cyc (m : Memory) (s : State) : (s.setMem m).cyc = s.cyc := rfl
@[simp] theorem State.setMem_mem (m : Memory) (s : State) : (s.setMem m).mem = m := rfl
@[simp] theorem State.setMem_cfg (m : Memory) (s : State) : (s.setMem m).cfg = s.cfg := rfl

@[simp] theorem State.tick_a (n : Nat) (s : State) : (s.tick n).a = s.a := rfl
@[simp] theorem State.tick_x (n : Nat) (s : State) : (s.tick n).x = s.x := rfl
@[simp] theorem State.tick_y (n : Nat) (s : State) : (s.tick n).y = s.y := rfl
@[simp] theorem State.tick_sp (n : Nat) (s : State) : (s.tick n).sp = s.sp := rfl
@[simp] theorem State.tick_p (n : Nat) (s : State) : (s.tick n).p = s.p := rfl
@[simp] theorem State.tick_pc (n : Nat) (s : State) : (s.tick n).pc = s.pc := rfl
@[simp] theorem State.tick_cyc (n : Nat) (s : State) : (s.tick n).cyc = s.cyc + n := rfl
@[simp] theorem State.tick_mem (n : Nat) (s : State) : (s.tick n).mem = s.mem := rfl
@[simp] theorem State.tick_cfg (n : Nat) (s : State) : (s.tick n).cfg = s.cfg := rfl

@[simp] theorem State.setFlag_a (f : Flag) (b : Bool) (s : State) : (s.setFlag f b).a = s.a := rfl
@[simp] theorem State.setFlag_x (f : Flag) (b : Bool) (s : State) : (s.setFlag f b).x = s.x := rfl
@[simp] theorem State.setFlag_y (f : Flag) (b : Bool) (s : State) : (s.setFlag f b).y = s.y := rfl
@[simp] theorem State.setFlag_sp (f : Flag) (b : Bool) (s : State) : (s.setFlag f b).sp = s.sp := rfl
@[simp] theorem State.setFlag_p (f : Flag) (b : Bool) (s : State) : (s.setFlag f b).p = Machine.setFlag f b s.p := rfl
@[simp] theorem State.setFlag_pc (f : Flag) (b : Bool) (s : State) : (s.setFlag f b).pc = s.pc := rfl
@[simp] theorem State.setFlag_cyc (f : Flag) (b : Bool) (s : State) : (s.setFlag f b).cyc = s.cyc := rfl
@[simp] theorem State.setFlag_mem (f : Flag) (b : Bool) (s : State) : (s.setFlag f b).mem = s.mem := rfl
@[simp] theorem State.setFlag_cfg (f : Flag) (b : Bool) (s : State) : (s.setFlag f b).cfg = s.cfg := rfl

@[simp] theorem State.setZN_a (v : Byte) (s : State) : (s.setZN v).a = s.a := rfl
@[simp] theorem State.setZN_x (v : Byte) (s : State) : (s.setZN v).x = s.x := rfl
@[simp] theorem State.setZN_y (v : Byte) (s : State) : (s.setZN v).y = s.y := rfl
@[simp] theorem State.setZN_sp (v : Byte) (s : State) : (s.setZN v).sp = s.sp := rfl
@[simp] theorem State.setZN_p (v : Byte) (s : State) : (s.setZN v).p = Machine.setZN v s.p := rfl
@[simp] theorem State.setZN_pc (v : Byte) (s : State) : (s.setZN v).pc = s.pc := rfl
@[simp] theorem State.setZN_cyc (v : Byte) (s : State) : (s.setZN v).cyc = s.cyc := rfl
@[simp] theorem State.setZN_mem (v : Byte) (s : State) : (s.setZN v).mem = s.mem := rfl
@[simp] theorem State.setZN_cfg (v : Byte) (s : State) : (s.setZN v).cfg = s.cfg := rfl

@[simp] theorem State.setReg_sp (r : Reg) (v : Byte) (s : State) : (s.setReg r v).sp = s.sp := by cases r <;> rfl
@[simp] theorem State.setReg_p (r : Reg) (v : Byte) (s : State) : (s.setReg r v).p = s.p := by cases r <;> rfl
@[simp] theorem State.setReg_pc (r : Reg) (v : Byte) (s : State) : (s.setReg r v).pc = s.pc := by cases r <;> rfl
@[simp] theorem State.setReg_cyc (r : Reg) (v : Byte) (s : State) : (s.setReg r v).cyc = s.cyc := by cases r <;> rfl
@[simp] theorem State.setReg_mem (r : Reg) (v : Byte) (s : State) : (s.setReg r v).mem = s.mem := by cases r <;> rfl
@[simp] theorem State.setReg_cfg (r : Reg) (v : Byte) (s : State) : (s.setReg r v).cfg = s.cfg := by cases r <;> rfl

@[simp] theorem State.reg_setReg (r : Reg) (v : Byte) (s : State) : (s.setReg r v).reg r = v := by cases r <;> rfl

theorem State.reg_setReg_of_ne {r q : Reg} (h : q ≠ r) (v : Byte) (s : State) : (s.setReg r v).reg q = s.reg q := by
  cases r <;> cases q <;> first | exact absurd rfl h | rfl

@[simp] theorem State.byteAt_setA (v : Byte) (s : State) (addr : Addr) : (s.setA v).byteAt addr = s.byteAt addr := rfl
@[simp] theorem State.byteAt_setX (v : Byte) (s : State) (addr : Addr) : (s.setX v).byteAt addr = s.byteAt addr := rfl
@[simp] theorem State.byteAt_setY (v : Byte) (s : State) (addr : Addr) : (s.setY v).byteAt addr = s.byteAt addr := rfl
@[simp] theorem State.byteAt_setSp (v : Byte) (s : State) (addr : Addr) : (s.setSp v).byteAt addr = s.byteAt addr := rfl
@[simp] theorem State.byteAt_setP (v : Byte) (s : State) (addr : Addr) : (s.setP v).byteAt addr = s.byteAt addr := rfl
@[simp] theorem State.byteAt_setPc (v : Addr) (s : State) (addr : Addr) : (s.setPc v).byteAt addr = s.byteAt addr := rfl
@[simp] theorem State.byteAt_tick (n : Nat) (s : State) (addr : Addr) : (s.tick n).byteAt addr = s.byteAt addr := rfl
@[simp] theorem State.byteAt_setFlag (f : Flag) (b : Bool) (s : State) (addr : Addr) :
    (s.setFlag f b).byteAt addr = s.byteAt addr := rfl
@[simp] theorem State.byteAt_setZN (v : Byte) (s : State) (addr : Addr) : (s.setZN v).byteAt addr = s.byteAt addr := rfl
@[simp] theorem State.byteAt_setReg (r : Reg) (v : Byte) (s : State) (addr : Addr) :
    (s.setReg r v).byteAt addr = s.byteAt addr := by cases r <;> rfl
@[simp] theorem State.byteAt_setMem (m : Memory) (s : State) (addr : Addr) :
    (s.setMem m).byteAt addr = m.read addr.toNat := rfl

@[simp] theorem State.tick_tick (n k : Nat) (s : State) : (s.tick n).tick k = s.tick (n + k) := by
  simp [State.tick, Nat.add_assoc]
@[simp] theorem State.tick_zero (s : State) : s.tick 0 = s := rfl

end Sys2Proof.Machine
end

