-- ==== Sys2Proof/Laws/Memory.lean ====
section
/-!
SUPPORT. Memory as data: reading after writing, the canonical form is kept by every write, and two canonical memories that
read alike are one list.
-/

namespace Sys2Proof.Machine

theorem Memory.read_insert_same (m : Memory) (addr : Nat) (v : Byte) : (m.insert addr v).read addr = v := by
  induction m with
  | nil => simp [Memory.insert, Memory.read]
  | cons c rest ih =>
    obtain ⟨k, w⟩ := c
    simp only [Memory.insert]
    split
    · simp [Memory.read]
    · split
      · simp [Memory.read]
      · rename_i h
        simp [Memory.read, Ne.symm h, ih]

theorem Memory.read_insert_of_ne (m : Memory) {addr other : Nat} (h : other ≠ addr) (v : Byte) :
    (m.insert addr v).read other = m.read other := by
  induction m with
  | nil => simp [Memory.insert, Memory.read, Ne.symm h]
  | cons c rest ih =>
    obtain ⟨k, w⟩ := c
    simp only [Memory.insert]
    split
    · simp [Memory.read, Ne.symm h]
    · split
      · rename_i hk
        simp [Memory.read, Ne.symm h, ← hk]
      · simp [Memory.read, ih]

theorem Memory.read_erase_of_ne (m : Memory) {addr other : Nat} (h : other ≠ addr) :
    (m.erase addr).read other = m.read other := by
  induction m with
  | nil => rfl
  | cons c rest ih =>
    obtain ⟨k, w⟩ := c
    simp only [Memory.erase]
    split
    · rename_i hk
      subst hk
      simp [Memory.read, Ne.symm h]
    · simp [Memory.read, ih]

/-- A write leaves every other address alone, in any list. -/
theorem Memory.read_write_of_ne (m : Memory) {addr other : Nat} (h : other ≠ addr) (v : Byte) :
    (m.write addr v).read other = m.read other := by
  unfold Memory.write
  split
  · exact m.read_erase_of_ne h
  · exact m.read_insert_of_ne h v

/-- The parts of the canonical form of a non-empty list. -/
theorem Memory.wfFrom_cons {lo k : Nat} {v : Byte} {rest : Memory} :
    Memory.wfFrom lo ((k, v) :: rest) = true ↔
      lo ≤ k ∧ k < 65536 ∧ v ≠ Memory.unlisted k ∧ Memory.wfFrom (k + 1) rest = true := by
  simp [Memory.wfFrom, and_assoc]

theorem Memory.wfFrom_mono {m : Memory} {lo lo' : Nat} (h : lo' ≤ lo) (hw : Memory.wfFrom lo m = true) :
    Memory.wfFrom lo' m = true := by
  cases m with
  | nil => rfl
  | cons c rest =>
    obtain ⟨k, v⟩ := c
    rw [Memory.wfFrom_cons] at hw ⊢
    exact ⟨by omega, hw.2⟩

/-- Below its first address a canonical list reads as unlisted. -/
theorem Memory.read_below {m : Memory} {lo addr : Nat} (hw : Memory.wfFrom lo m = true) (h : addr < lo) :
    m.read addr = Memory.unlisted addr := by
  induction m generalizing lo with
  | nil => rfl
  | cons c rest ih =>
    obtain ⟨k, v⟩ := c
    rw [Memory.wfFrom_cons] at hw
    have hk : k ≠ addr := by omega
    simp only [Memory.read, if_neg hk]
    exact ih hw.2.2.2 (by omega)

theorem Memory.read_erase_same {m : Memory} {lo addr : Nat} (hw : Memory.wfFrom lo m = true) :
    (m.erase addr).read addr = Memory.unlisted addr := by
  induction m generalizing lo with
  | nil => rfl
  | cons c rest ih =>
    obtain ⟨k, v⟩ := c
    rw [Memory.wfFrom_cons] at hw
    simp only [Memory.erase]
    split
    · exact Memory.read_below hw.2.2.2 (by omega)
    · rename_i hk
      simp [Memory.read, hk, ih hw.2.2.2]

/-- A read after a write to the same address gives the byte written. -/
theorem Memory.read_write_same {m : Memory} (hw : m.wf = true) (addr : Nat) (v : Byte) :
    (m.write addr v).read addr = v := by
  unfold Memory.write
  split
  · rename_i h
    rw [Memory.read_erase_same hw, h]
  · exact m.read_insert_same addr v

theorem Memory.wfFrom_erase {m : Memory} {lo : Nat} (addr : Nat) (hw : Memory.wfFrom lo m = true) :
    Memory.wfFrom lo (m.erase addr) = true := by
  induction m generalizing lo with
  | nil => rfl
  | cons c rest ih =>
    obtain ⟨k, v⟩ := c
    rw [Memory.wfFrom_cons] at hw
    simp only [Memory.erase]
    split
    · exact Memory.wfFrom_mono (by omega) hw.2.2.2
    · exact Memory.wfFrom_cons.mpr ⟨hw.1, hw.2.1, hw.2.2.1, ih hw.2.2.2⟩

theorem Memory.wfFrom_insert {m : Memory} {lo addr : Nat} {v : Byte} (hlo : lo ≤ addr) (ha : addr < 65536)
    (hv : v ≠ Memory.unlisted addr) (hw : Memory.wfFrom lo m = true) : Memory.wfFrom lo (m.insert addr v) = true := by
  induction m generalizing lo with
  | nil => exact Memory.wfFrom_cons.mpr ⟨hlo, ha, hv, rfl⟩
  | cons c rest ih =>
    obtain ⟨k, w⟩ := c
    rw [Memory.wfFrom_cons] at hw
    simp only [Memory.insert]
    split
    · exact Memory.wfFrom_cons.mpr ⟨hlo, ha, hv, Memory.wfFrom_cons.mpr ⟨by omega, hw.2⟩⟩
    · split
      · rename_i hk
        exact Memory.wfFrom_cons.mpr ⟨hlo, ha, hv, by rw [hk]; exact hw.2.2.2⟩
      · exact Memory.wfFrom_cons.mpr ⟨hw.1, hw.2.1, hw.2.2.1, ih (by omega) hw.2.2.2⟩

/-- Every write inside the address space keeps the canonical form. -/
theorem Memory.wf_write {m : Memory} (hw : m.wf = true) {addr : Nat} (ha : addr < 65536) (v : Byte) :
    (m.write addr v).wf = true := by
  unfold Memory.write
  split
  · exact Memory.wfFrom_erase addr hw
  · rename_i hv
    exact Memory.wfFrom_insert (Nat.zero_le _) ha hv hw

/-- Every write at an address keeps the canonical form. -/
theorem Memory.wf_write_addr {m : Memory} (hw : m.wf = true) (addr : Addr) (v : Byte) :
    (m.write addr.toNat v).wf = true := Memory.wf_write hw addr.isLt v

theorem Memory.eq_of_read_eq {m m' : Memory} {lo : Nat} (hw : Memory.wfFrom lo m = true)
    (hw' : Memory.wfFrom lo m' = true) (h : ∀ addr, m.read addr = m'.read addr) : m = m' := by
  induction m generalizing m' lo with
  | nil =>
    cases m' with
    | nil => rfl
    | cons c rest =>
      obtain ⟨k, v⟩ := c
      rw [Memory.wfFrom_cons] at hw'
      exact absurd (by simpa [Memory.read] using (h k).symm) hw'.2.2.1
  | cons c rest ih =>
    obtain ⟨k, v⟩ := c
    cases m' with
    | nil =>
      rw [Memory.wfFrom_cons] at hw
      exact absurd (by simpa [Memory.read] using h k) hw.2.2.1
    | cons c' rest' =>
      obtain ⟨k', v'⟩ := c'
      rw [Memory.wfFrom_cons] at hw hw'
      have hk : k = k' := by
        rcases Nat.lt_trichotomy k k' with hlt | heq | hgt
        · have h1 := h k
          rw [Memory.read, if_pos rfl, Memory.read, if_neg (by omega),
            Memory.read_below hw'.2.2.2 (by omega)] at h1
          exact absurd h1 hw.2.2.1
        · exact heq
        · have h1 := h k'
          rw [Memory.read, if_neg (by omega), Memory.read_below hw.2.2.2 (by omega), Memory.read, if_pos rfl] at h1
          exact absurd h1.symm hw'.2.2.1
      subst hk
      have hv : v = v' := by simpa [Memory.read] using h k
      subst hv
      rw [ih hw.2.2.2 hw'.2.2.2]
      intro addr
      by_cases ha : k = addr
      · rw [Memory.read_below hw.2.2.2 (by omega), Memory.read_below hw'.2.2.2 (by omega)]
      · simpa [Memory.read, ha] using h addr

end Sys2Proof.Machine
end

