-- ==== Sys2Proof/Laws/Ops.lean ====
section
/-!
SUPPORT. One lemma per shared operation of Machine/Ops.lean: everything it does, as one state.
-/

namespace Sys2Proof.Machine

theorem memRead_eq (addr : Addr) (s : State) : memRead addr s = (s.byteAt addr, s.tick 1) := rfl

theorem memWrite_eq (addr : Addr) (v : Byte) (s : State) :
    memWrite addr v s = { s with mem := s.mem.write addr.toNat v, cyc := s.cyc + 1 } := rfl

theorem fetch8_eq (s : State) : fetch8 s = (s.byteAt s.pc, { s with pc := s.pc + 1, cyc := s.cyc + 1 }) := rfl

theorem fetch16_eq (s : State) :
    fetch16 s = (word16 (s.byteAt (s.pc + 1)) (s.byteAt s.pc), { s with pc := s.pc + 1 + 1, cyc := s.cyc + 1 + 1 }) := rfl

theorem push8_eq (v : Byte) (s : State) :
    push8 v s = { s with sp := s.sp - 1, mem := s.mem.write (stackAddr s.sp).toNat v, cyc := s.cyc + 1 } := rfl

theorem pop8_eq (s : State) :
    pop8 s = (s.byteAt (stackAddr (s.sp + 1)), { s with sp := s.sp + 1, cyc := s.cyc + 1 }) := rfl

theorem push16_eq (w : Addr) (s : State) :
    push16 w s =
      { s with
        sp := s.sp - 1 - 1
        mem := (s.mem.write (stackAddr s.sp).toNat (hiByte w)).write (stackAddr (s.sp - 1)).toNat (loByte w)
        cyc := s.cyc + 1 + 1 } := rfl

theorem pop16_eq (s : State) :
    pop16 s =
      (word16 (s.byteAt (stackAddr (s.sp + 1 + 1))) (s.byteAt (stackAddr (s.sp + 1))),
        { s with sp := s.sp + 1 + 1, cyc := s.cyc + 1 + 1 }) := rfl

/-! ### Addresses -/

theorem toNat_ne_of_ne {a b : Addr} (h : a ≠ b) : a.toNat ≠ b.toNat := fun e => h (BitVec.eq_of_toNat_eq e)

theorem word16_toNat (h l : Byte) : (word16 h l).toNat = h.toNat * 256 + l.toNat := by
  rw [word16, BitVec.toNat_append, ← Nat.shiftLeft_add_eq_or_of_lt l.isLt, Nat.shiftLeft_eq]

theorem hiByte_toNat (w : Addr) : (hiByte w).toNat = w.toNat / 256 := by
  have := w.isLt
  rw [hiByte, BitVec.extractLsb'_toNat, Nat.shiftRight_eq_div_pow]
  omega

theorem loByte_toNat (w : Addr) : (loByte w).toNat = w.toNat % 256 := by
  rw [loByte, BitVec.extractLsb'_toNat, Nat.shiftRight_zero]

theorem stackAddr_toNat (sp : Byte) : (stackAddr sp).toNat = 256 + sp.toNat := by
  rw [stackAddr, word16_toNat]
  rfl

theorem stackAddr_injective {a b : Byte} (h : stackAddr a = stackAddr b) : a = b := by
  have := congrArg BitVec.toNat h
  rw [stackAddr_toNat, stackAddr_toNat] at this
  exact BitVec.eq_of_toNat_eq (by omega)

theorem stackAddr_ne {a b : Byte} (h : a ≠ b) : (stackAddr a).toNat ≠ (stackAddr b).toNat :=
  toNat_ne_of_ne fun e => h (stackAddr_injective e)

theorem word16_hi_lo (w : Addr) : word16 (hiByte w) (loByte w) = w := by
  apply BitVec.eq_of_toNat_eq
  rw [word16_toNat, hiByte_toNat, loByte_toNat]
  omega

@[simp] theorem hiByte_word16 (h l : Byte) : hiByte (word16 h l) = h := by
  have := l.isLt
  apply BitVec.eq_of_toNat_eq
  rw [hiByte_toNat, word16_toNat]
  omega

@[simp] theorem loByte_word16 (h l : Byte) : loByte (word16 h l) = l := by
  have := l.isLt
  apply BitVec.eq_of_toNat_eq
  rw [loByte_toNat, word16_toNat]
  omega

/-! ### Interrupt entry and return -/

/-- Interrupt entry: three pushes, `PC` from the vector, B and I set. The stack page holds no vector byte. -/
theorem enterInterrupt_eq (ret : Addr) (s : State) :
    enterInterrupt ret s =
      { s with
        sp := s.sp - 1 - 1 - 1
        p := setFlag .I true (setFlag .B true s.p)
        pc := word16 (s.byteAt 0xFFFF) (s.byteAt 0xFFFE)
        mem := ((s.mem.write (stackAddr s.sp).toNat (hiByte ret)).write (stackAddr (s.sp - 1)).toNat (loByte ret)).write
          (stackAddr (s.sp - 1 - 1)).toNat (pushedStatus s.p)
        cyc := s.cyc + 1 + 1 + 1 + 1 + 1 + 1 } := by
  have hv : ∀ (v : Addr) (sp : Byte), 512 ≤ v.toNat → v.toNat ≠ (stackAddr sp).toNat := fun v sp h => by
    rw [stackAddr_toNat]; have := sp.isLt; omega
  have hr : ∀ (v : Addr), 512 ≤ v.toNat → ∀ (a b c : Byte) (x y z : Byte),
      (((s.mem.write (stackAddr a).toNat x).write (stackAddr b).toNat y).write (stackAddr c).toNat z).read v.toNat =
        s.mem.read v.toNat := fun v h a b c x y z => by
    rw [Memory.read_write_of_ne _ (hv _ _ h), Memory.read_write_of_ne _ (hv _ _ h), Memory.read_write_of_ne _ (hv _ _ h)]
  have h1 := hr 0xFFFE (by decide)
  have h2 := hr 0xFFFF (by decide)
  simp only [enterInterrupt, readVector, push8_eq, push16_eq, memRead_eq, State.byteAt, State.setPc, State.setFlag,
    State.setP, State.tick, vectorAddr, h1, show (0xFFFE + 1 : Addr) = 0xFFFF from rfl, h2]

theorem returnFromInterrupt_eq (s : State) :
    returnFromInterrupt s =
      { s with
        sp := s.sp + 1 + 1 + 1
        p := setFlag .B false (pulledStatus (s.byteAt (stackAddr (s.sp + 1))) s.p)
        pc := word16 (s.byteAt (stackAddr (s.sp + 1 + 1 + 1))) (s.byteAt (stackAddr (s.sp + 1 + 1)))
        cyc := s.cyc + 1 + 1 + 1 + 2 } := by
  simp only [returnFromInterrupt, pop8_eq, pop16_eq, State.setPc, State.setP, State.setFlag, State.tick, State.byteAt]

end Sys2Proof.Machine
end

