-- ==== Sys2Proof/Laws/Decode.lean ====
section
/-!
SUPPORT. The dispatch table row by row: each row makes instructions whose opcode byte is the row's, and each instruction is
made by the row of its opcode byte. Then the decoder over a known row.
-/

namespace Sys2Proof

open Sys2Proof.Machine

/-- What a row of the dispatch table at the opcode byte `op` must be: the instructions it makes carry that opcode byte, and
their operand bytes are the bytes they are made from. -/
def OpcodeRow.SoundAt (op : Byte) : OpcodeRow → Prop
  | .none1 i => opcodeByte i = op ∧ operandBytes i.operand = [] ∧ i.length = 1
  | .byte2 make => ∀ b, opcodeByte (make b) = op ∧ operandBytes (make b).operand = [b] ∧ (make b).length = 2
  | .word3 make =>
    ∀ w, opcodeByte (make w) = op ∧ operandBytes (make w).operand = [loByte w, hiByte w] ∧ (make w).length = 3

/-- A row makes an instruction from the instruction's own operand bytes. -/
def OpcodeRow.Makes (i : Instr) : OpcodeRow → Prop
  | .none1 j => j = i ∧ operandBytes i.operand = []
  | .byte2 make => ∃ b, make b = i ∧ operandBytes i.operand = [b]
  | .word3 make => ∃ w, make w = i ∧ operandBytes i.operand = [loByte w, hiByte w]

/-- A table whose every row is sound at its own opcode byte. -/
def SoundTable (t : List (Nat × OpcodeRow)) : Prop :=
  t.Forall fun r => r.1 < 256 ∧ r.2.SoundAt (BitVec.ofNat 8 r.1)

theorem opcodeTable_sound (n : Nat) : SoundTable (opcodeTable n) := by
  unfold opcodeTable
  split <;> repeat' first | apply And.intro | intro _ | exact True.intro | rfl | decide

theorem lookupRow_sound {t : List (Nat × OpcodeRow)} (ht : SoundTable t) {n : Nat} {row : OpcodeRow}
    (h : lookupRow t n = some row) : row.SoundAt (BitVec.ofNat 8 n) := by
  induction t with
  | nil => cases h
  | cons r rest ih =>
    obtain ⟨k, q⟩ := r
    rw [SoundTable, List.forall_cons] at ht
    rw [lookupRow] at h
    split at h
    · rename_i hk
      rw [beq_iff_eq] at hk
      cases h
      rw [← hk]
      exact ht.1.2
    · exact ih ht.2 h

/-- The row that dispatch finds for an opcode byte is sound at that byte. -/
theorem dispatchRow_sound {op : Byte} {row : OpcodeRow} (h : dispatchRow op = some row) : row.SoundAt op := by
  have := lookupRow_sound (opcodeTable_sound _) h
  rwa [BitVec.ofNat_toNat, BitVec.setWidth_eq] at this

/-- Every instruction is made by the row of its opcode byte. -/
theorem dispatchRow_opcodeByte (i : Instr) : ∃ row, dispatchRow (opcodeByte i) = some row ∧ row.Makes i := by
  cases i <;> rw [opcodeByte] <;> refine ⟨_, rfl, ?_⟩ <;> first
    | exact ⟨rfl, rfl⟩
    | exact ⟨_, rfl, rfl⟩

/-! ### The decoder over a known row -/

theorem decode_none {op : Byte} (h : dispatchRow op = none) (rest : List Byte) :
    decode (op :: rest) = .unknownOpcode op := by
  simp only [decode, h]

theorem decode_none1 {op : Byte} {i : Instr} (h : dispatchRow op = some (.none1 i)) (rest : List Byte) :
    decode (op :: rest) = .instr i rest := by
  simp only [decode, h]

theorem decode_byte2 {op : Byte} {make : Byte → Instr} (h : dispatchRow op = some (.byte2 make)) (b : Byte)
    (rest : List Byte) : decode (op :: b :: rest) = .instr (make b) rest := by
  simp only [decode, h]

theorem decode_word3 {op : Byte} {make : Addr → Instr} (h : dispatchRow op = some (.word3 make)) (l g : Byte)
    (rest : List Byte) : decode (op :: l :: g :: rest) = .instr (make (word16 g l)) rest := by
  simp only [decode, h]

end Sys2Proof
end

