-- ==== Sys2Proof/Laws/Operands.lean ====
section
/-!
SUPPORT. One lemma per operation of the resolver: the pseudocode form equals the closed form.
-/

namespace Sys2Proof.Machine

theorem readPtrZP_eq (z : Byte) (s : State) : readPtrZP z s = (zpPointer z s, s.tick 2) := rfl

theorem readJmpTarget_eq (ptr : Addr) (s : State) : readJmpTarget ptr s = (jmpIndTarget ptr s, s.tick 2) := rfl

theorem indexed_eq (fl : Flavour) (base : Addr) (index : Byte) (s : State) :
    indexed fl base index s =
      (base + zext8 index,
        s.tick (match fl with
          | .read => if crossesPage base (base + zext8 index) then 1 else 0
          | .store => 1)) := by
  cases fl
  · simp only [indexed]
    split <;> simp
  · rfl

@[simp] theorem zpPointer_tick (z : Byte) (n : Nat) (s : State) : zpPointer z (s.tick n) = zpPointer z s := rfl

/-- The resolver's address and cost in closed form. -/
theorem resolve_eq (fl : Flavour) (m : MemOperand) (s : State) :
    resolve fl m s = (effAddr m s, s.tick (resolveCycles fl m s)) := by
  cases m <;> simp only [resolve, effAddr, baseAddr, resolveCycles, indexed_eq, readPtrZP_eq, State.tick_zero]
  · cases fl <;> rfl
  · cases fl <;> rfl
  · simp
  · cases fl <;> rw [State.tick_tick] <;> rfl

theorem readOperand_eq (src : Source) (s : State) : readOperand src s = (sourceValue src s, s.tick (sourceCycles src s)) := by
  cases src with
  | imm v => rfl
  | mem m => simp [readOperand, resolve_eq, memRead_eq, sourceValue, sourceCycles]

theorem writeResult_eq (m : MemOperand) (v : Byte) (s : State) :
    writeResult m v s =
      { s with mem := s.mem.write (effAddr m s).toNat v, cyc := s.cyc + resolveCycles .store m s + 1 } := by
  simp [writeResult, resolve_eq, memWrite_eq]

theorem modify_eq (f : ModifyFn) (m : MemOperand) (s : State) :
    modify f m s =
      { s with
        p := (f (s.byteAt (effAddr m s)) s.p).2
        mem := s.mem.write (effAddr m s).toNat (f (s.byteAt (effAddr m s)) s.p).1
        cyc := s.cyc + resolveCycles .store m s + 1 + 1 + 1 } := by
  simp only [modify, resolve_eq, memRead_eq, memWrite_eq]
  rfl

theorem operateAcc_eq (f : ModifyFn) (s : State) :
    operateAcc f s = { s with a := (f s.a s.p).1, p := (f s.a s.p).2, cyc := s.cyc + 1 } := rfl

/-! ### The operand does not depend on the cycles spent -/

@[simp] theorem effAddr_tick (m : MemOperand) (n : Nat) (s : State) : effAddr m (s.tick n) = effAddr m s := by
  cases m <;> rfl

@[simp] theorem resolveCycles_tick (fl : Flavour) (m : MemOperand) (n : Nat) (s : State) :
    resolveCycles fl m (s.tick n) = resolveCycles fl m s := by
  cases m <;> cases fl <;> rfl

@[simp] theorem sourceValue_tick (src : Source) (n : Nat) (s : State) : sourceValue src (s.tick n) = sourceValue src s := by
  cases src with
  | imm v => rfl
  | mem m => cases m <;> rfl

@[simp] theorem sourceCycles_tick (src : Source) (n : Nat) (s : State) :
    sourceCycles src (s.tick n) = sourceCycles src s := by
  cases src with
  | imm v => rfl
  | mem m => cases m <;> rfl

end Sys2Proof.Machine
end

