-- ==== Sys2Proof/Laws/Meanings.lean ====
section
/-!
SUPPORT. One lemma per operation that the meanings share: everything it does, as one state.
-/

namespace Sys2Proof.Machine

theorem addInto_eq (f : Byte → Byte) (src : Source) (s : State) :
    addInto f src s =
      { s with
        a := (addCore s.a (f (sourceValue src s)) (s.flag .C)).1
        p := setCVZN (addCore s.a (f (sourceValue src s)) (s.flag .C)).2.1 (addCore s.a (f (sourceValue src s)) (s.flag .C)).2.2
          (addCore s.a (f (sourceValue src s)) (s.flag .C)).1 s.p
        cyc := s.cyc + sourceCycles src s } := by
  simp only [addInto, readOperand_eq]
  rfl

theorem compare_eq (reg : Reg) (src : Source) (s : State) :
    compare reg src s = { s with p := compareStatus (s.reg reg) (sourceValue src s) s.p, cyc := s.cyc + sourceCycles src s } := by
  simp only [compare, readOperand_eq]
  cases reg <;> rfl

theorem logic_eq (f : Byte → Byte → Byte) (src : Source) (s : State) :
    logic f src s =
      { s with a := f s.a (sourceValue src s), p := setZN (f s.a (sourceValue src s)) s.p, cyc := s.cyc + sourceCycles src s } := by
  simp only [logic, readOperand_eq]
  rfl

theorem bitTest_eq (src : Source) (s : State) :
    bitTest src s = { s with p := bitStatus s.a (sourceValue src s) s.p, cyc := s.cyc + sourceCycles src s } := by
  simp only [bitTest, readOperand_eq]
  rfl

theorem load_eq (reg : Reg) (src : Source) (s : State) :
    load reg src s = ((s.setReg reg (sourceValue src s)).setZN (sourceValue src s)).tick (sourceCycles src s) := by
  simp only [load, readOperand_eq]
  cases reg <;> rfl

theorem store_eq (reg : Reg) (m : MemOperand) (s : State) :
    store reg m s =
      { s with mem := s.mem.write (effAddr m s).toNat (s.reg reg), cyc := s.cyc + resolveCycles .store m s + 1 } := by
  rw [store, writeResult_eq]

theorem branch_eq (cond : Bool) (rel8 : Byte) (s : State) :
    branch cond rel8 s =
      { s with
        pc := if cond then s.pc + sext8 rel8 else s.pc
        cyc := s.cyc + if cond then (if crossesPage s.pc (s.pc + sext8 rel8) then 2 else 1) else 0 } := by
  cases cond
  · rfl
  · simp only [branch, if_true]
    split <;> rfl

theorem pla_eq (s : State) :
    pla s =
      { s with
        a := s.byteAt (stackAddr (s.sp + 1)), sp := s.sp + 1, p := setZN (s.byteAt (stackAddr (s.sp + 1))) s.p
        cyc := s.cyc + 1 + 2 } := rfl

theorem plp_eq (s : State) :
    plp s =
      { s with sp := s.sp + 1, p := pulledStatus (s.byteAt (stackAddr (s.sp + 1))) s.p, cyc := s.cyc + 1 + 2 } := rfl

theorem jmpIndirect_eq (ptr : Addr) (s : State) :
    jmpIndirect ptr s = { s with pc := jmpIndTarget ptr s, cyc := s.cyc + 2 } := rfl

theorem rts_eq (s : State) :
    rts s =
      { s with
        sp := s.sp + 1 + 1
        pc := word16 (s.byteAt (stackAddr (s.sp + 1 + 1))) (s.byteAt (stackAddr (s.sp + 1))) + 1
        cyc := s.cyc + 1 + 1 + 3 } := rfl

/-- ADC with D set. -/
theorem adc_fault {s : State} (h : s.flag .D = true) (src : Source) : adc src s = .fault .decimalMode := if_pos h

/-- ADC with D clear. -/
theorem adc_next {s : State} (h : s.flag .D = false) (src : Source) : adc src s = .next (addInto (fun m => m) src s) :=
  if_neg (by rw [h]; decide)

/-- SBC with D set. -/
theorem sbc_fault {s : State} (h : s.flag .D = true) (src : Source) : sbc src s = .fault .decimalMode := if_pos h

/-- SBC with D clear. -/
theorem sbc_next {s : State} (h : s.flag .D = false) (src : Source) :
    sbc src s = .next (addInto (fun m => m ^^^ 0xFF) src s) :=
  if_neg (by rw [h]; decide)

theorem putReg_eq (reg : Reg) (v : Byte) (s : State) : putReg reg v s = ((s.setReg reg v).setZN v).tick 1 := rfl

end Sys2Proof.Machine
end

