-- ==== Sys2Proof/Laws/Exec.lean ====
section
/-!
SUPPORT. Every instruction's meaning by its mnemonic and operand: 56 mnemonics over the shared operations, whatever the
form. A proof about all instructions takes `exec_shape i` apart instead of the 151 constructors.
-/

namespace Sys2Proof

/-- The operand that names a source. -/
def Source.operand : Source → Operand
  | .imm v => .imm v
  | .mem m => .mem m

namespace Machine

/-- What an instruction of a mnemonic and operand does. -/
inductive ExecShape : Mnemonic → Operand → (State → Result) → Prop
  | adc (src : Source) : ExecShape .ADC src.operand (adc src)
  | sbc (src : Source) : ExecShape .SBC src.operand (sbc src)
  | cmp (src : Source) : ExecShape .CMP src.operand fun s => .next (compare .A src s)
  | cpx (src : Source) : ExecShape .CPX src.operand fun s => .next (compare .X src s)
  | cpy (src : Source) : ExecShape .CPY src.operand fun s => .next (compare .Y src s)
  | and (src : Source) : ExecShape .AND src.operand fun s => .next (logic (· &&& ·) src s)
  | ora (src : Source) : ExecShape .ORA src.operand fun s => .next (logic (· ||| ·) src s)
  | eor (src : Source) : ExecShape .EOR src.operand fun s => .next (logic (· ^^^ ·) src s)
  | bit (m : MemOperand) : ExecShape .BIT (.mem m) fun s => .next (bitTest (.mem m) s)
  | lda (src : Source) : ExecShape .LDA src.operand fun s => .next (load .A src s)
  | ldx (src : Source) : ExecShape .LDX src.operand fun s => .next (load .X src s)
  | ldy (src : Source) : ExecShape .LDY src.operand fun s => .next (load .Y src s)
  | sta (m : MemOperand) : ExecShape .STA (.mem m) fun s => .next (store .A m s)
  | stx (m : MemOperand) : ExecShape .STX (.mem m) fun s => .next (store .X m s)
  | sty (m : MemOperand) : ExecShape .STY (.mem m) fun s => .next (store .Y m s)
  | inc (m : MemOperand) : ExecShape .INC (.mem m) fun s => .next (modify incFn m s)
  | dec (m : MemOperand) : ExecShape .DEC (.mem m) fun s => .next (modify decFn m s)
  | asl (m : MemOperand) : ExecShape .ASL (.mem m) fun s => .next (modify aslFn m s)
  | lsr (m : MemOperand) : ExecShape .LSR (.mem m) fun s => .next (modify lsrFn m s)
  | rol (m : MemOperand) : ExecShape .ROL (.mem m) fun s => .next (modify rolFn m s)
  | ror (m : MemOperand) : ExecShape .ROR (.mem m) fun s => .next (modify rorFn m s)
  | aslAcc : ExecShape .ASL .acc fun s => .next (operateAcc aslFn s)
  | lsrAcc : ExecShape .LSR .acc fun s => .next (operateAcc lsrFn s)
  | rolAcc : ExecShape .ROL .acc fun s => .next (operateAcc rolFn s)
  | rorAcc : ExecShape .ROR .acc fun s => .next (operateAcc rorFn s)
  | tax : ExecShape .TAX .imp fun s => .next (putReg .X s.a s)
  | tay : ExecShape .TAY .imp fun s => .next (putReg .Y s.a s)
  | txa : ExecShape .TXA .imp fun s => .next (putReg .A s.x s)
  | tya : ExecShape .TYA .imp fun s => .next (putReg .A s.y s)
  | inx : ExecShape .INX .imp fun s => .next (putReg .X (s.x + 1) s)
  | iny : ExecShape .INY .imp fun s => .next (putReg .Y (s.y + 1) s)
  | dex : ExecShape .DEX .imp fun s => .next (putReg .X (s.x - 1) s)
  | dey : ExecShape .DEY .imp fun s => .next (putReg .Y (s.y - 1) s)
  | tsx : ExecShape .TSX .imp fun s => .next (((s.setX s.sp).setZN s.sp).tick 1)
  | txs : ExecShape .TXS .imp fun s => .next ((s.setSp s.x).tick 1)
  | pha : ExecShape .PHA .imp fun s => .next ((push8 s.a s).tick 1)
  | php : ExecShape .PHP .imp fun s => .next ((push8 (pushedStatus s.p) s).tick 1)
  | pla : ExecShape .PLA .imp fun s => .next (pla s)
  | plp : ExecShape .PLP .imp fun s => .next (plp s)
  | jmpAbs (addr : Addr) : ExecShape .JMP (.mem (.abs addr)) fun s => .next (s.setPc addr)
  | jmpInd (ptr : Addr) : ExecShape .JMP (.ind ptr) fun s => .next (jmpIndirect ptr s)
  | jsr (addr : Addr) : ExecShape .JSR (.mem (.abs addr)) fun s => .next (((push16 (s.pc - 1) s).setPc addr).tick 1)
  | rts : ExecShape .RTS .imp fun s => .next (rts s)
  | brk : ExecShape .BRK .imp fun s => .next (enterInterrupt (s.pc + 1) s)
  | rti : ExecShape .RTI .imp fun s => .next (returnFromInterrupt s)
  | bpl (o : Byte) : ExecShape .BPL (.rel o) fun s => .next (branch (!s.flag .N) o s)
  | bmi (o : Byte) : ExecShape .BMI (.rel o) fun s => .next (branch (s.flag .N) o s)
  | bvc (o : Byte) : ExecShape .BVC (.rel o) fun s => .next (branch (!s.flag .V) o s)
  | bvs (o : Byte) : ExecShape .BVS (.rel o) fun s => .next (branch (s.flag .V) o s)
  | bcc (o : Byte) : ExecShape .BCC (.rel o) fun s => .next (branch (!s.flag .C) o s)
  | bcs (o : Byte) : ExecShape .BCS (.rel o) fun s => .next (branch (s.flag .C) o s)
  | bne (o : Byte) : ExecShape .BNE (.rel o) fun s => .next (branch (!s.flag .Z) o s)
  | beq (o : Byte) : ExecShape .BEQ (.rel o) fun s => .next (branch (s.flag .Z) o s)
  | clc : ExecShape .CLC .imp fun s => .next ((s.setFlag .C false).tick 1)
  | sec : ExecShape .SEC .imp fun s => .next ((s.setFlag .C true).tick 1)
  | cli : ExecShape .CLI .imp fun s => .next ((s.setFlag .I false).tick 1)
  | sei : ExecShape .SEI .imp fun s => .next ((s.setFlag .I true).tick 1)
  | clv : ExecShape .CLV .imp fun s => .next ((s.setFlag .V false).tick 1)
  | cld : ExecShape .CLD .imp fun s => .next ((s.setFlag .D false).tick 1)
  | sed : ExecShape .SED .imp fun s => .next ((s.setFlag .D true).tick 1)
  | nop : ExecShape .NOP .imp fun s => .next (s.tick 1)

/-- Every instruction has its shape. -/
theorem exec_shape (i : Instr) : ExecShape i.mnemonic i.operand (exec i) := by
  cases i <;> first
    | constructor
    | exact .adc (.mem _)
    | exact .adc (.imm _)
    | exact .sbc (.mem _)
    | exact .sbc (.imm _)
    | exact .cmp (.mem _)
    | exact .cmp (.imm _)
    | exact .cpx (.mem _)
    | exact .cpx (.imm _)
    | exact .cpy (.mem _)
    | exact .cpy (.imm _)
    | exact .and (.mem _)
    | exact .and (.imm _)
    | exact .ora (.mem _)
    | exact .ora (.imm _)
    | exact .eor (.mem _)
    | exact .eor (.imm _)
    | exact .lda (.mem _)
    | exact .lda (.imm _)
    | exact .ldx (.mem _)
    | exact .ldx (.imm _)
    | exact .ldy (.mem _)
    | exact .ldy (.imm _)

end Machine

end Sys2Proof
end

