-- ==== Sys2Proof/Laws/Fetch.lean ====
section
/-!
SUPPORT. Fetching over a known row of the dispatch table, and what placing bytes in memory does.
-/

namespace Sys2Proof.Machine

theorem fetchInstr_none {s : State} (h : dispatchRow (s.byteAt s.pc) = none) :
    fetchInstr s = .unknown (s.byteAt s.pc) := by
  simp only [fetchInstr, fetch8_eq, h]

theorem fetchInstr_none1 {s : State} {i : Instr} (h : dispatchRow (s.byteAt s.pc) = some (.none1 i)) :
    fetchInstr s = .instr i (s.pastFetch 1) := by
  simp only [fetchInstr, fetch8_eq, h]
  rfl

theorem fetchInstr_byte2 {s : State} {make : Byte → Instr} (h : dispatchRow (s.byteAt s.pc) = some (.byte2 make)) :
    fetchInstr s = .instr (make (s.byteAt (s.pc + 1))) (s.pastFetch 2) := by
  simp only [fetchInstr, fetch8_eq, h]
  rw [State.pastFetch, State.setPc, State.tick, show (BitVec.ofNat 16 2 : Addr) = 1 + 1 from rfl, ← BitVec.add_assoc]
  rfl

theorem fetchInstr_word3 {s : State} {make : Addr → Instr} (h : dispatchRow (s.byteAt s.pc) = some (.word3 make)) :
    fetchInstr s = .instr (make (word16 (s.byteAt (s.pc + 1 + 1)) (s.byteAt (s.pc + 1)))) (s.pastFetch 3) := by
  simp only [fetchInstr, fetch8_eq, fetch16_eq, h]
  rw [State.pastFetch, State.setPc, State.tick, show (BitVec.ofNat 16 3 : Addr) = 1 + 1 + 1 from rfl,
    ← BitVec.add_assoc, ← BitVec.add_assoc]
  rfl

/-- What a fetch finds: an unknown opcode byte, or an instruction of 1, 2 or 3 bytes whose opcode byte lies at `PC`, with
the state past those bytes. -/
theorem fetchInstr_cases (s : State) :
    (dispatchRow (s.byteAt s.pc) = none ∧ fetchInstr s = .unknown (s.byteAt s.pc)) ∨
    ∃ i, fetchInstr s = .instr i (s.pastFetch i.length) ∧ opcodeByte i = s.byteAt s.pc := by
  cases h : dispatchRow (s.byteAt s.pc) with
  | none => exact .inl ⟨rfl, fetchInstr_none h⟩
  | some row =>
    have hs := dispatchRow_sound h
    cases row with
    | none1 i => exact .inr ⟨i, by rw [fetchInstr_none1 h, hs.2.2], hs.1⟩
    | byte2 make => exact .inr ⟨_, by rw [fetchInstr_byte2 h, (hs _).2.2], (hs _).1⟩
    | word3 make => exact .inr ⟨_, by rw [fetchInstr_word3 h, (hs _).2.2], (hs _).1⟩

/-- What a step does: it halts on an unknown opcode byte, or runs one instruction from the state past its bytes. -/
theorem step_cases (s : State) :
    (dispatchRow (s.byteAt s.pc) = none ∧ step s = .refused (.unknownOpcode (s.byteAt s.pc))) ∨
    ∃ i, step s = exec i (s.pastFetch i.length) ∧ opcodeByte i = s.byteAt s.pc := by
  rcases fetchInstr_cases s with ⟨h, hf⟩ | ⟨i, hf, ho⟩
  · exact .inl ⟨h, by simp only [step, hf]⟩
  · exact .inr ⟨i, by simp only [step, hf], ho⟩

/-- Placing bytes keeps memory canonical. -/
theorem wf_writeBytes (bs : List Byte) (addr : Addr) {m : Memory} (h : m.wf = true) :
    (writeBytes bs addr m).wf = true := by
  induction bs generalizing addr m with
  | nil => exact h
  | cons b rest ih => exact ih (addr + 1) (Memory.wf_write_addr h addr b)

/-- Placing an instruction where the next step fetches keeps memory canonical. -/
theorem wf_withFetchWord {s : State} (h : s.mem.wf = true) (nbits w : Nat) : (s.withFetchWord nbits w).mem.wf = true :=
  wf_writeBytes _ _ h

end Sys2Proof.Machine
end

