-- ==== Sys2Proof/Laws/PerInstr.lean ====
section
/-!
SUPPORT. The family `Forms`, one lemma per constructor: each instruction's (mnemonic, mode) pair exists, and its encoding
has the length of its mode, the first byte being its opcode byte (30_encoding.md rules R80, R83, R85).
-/

namespace Sys2Proof.Laws

/-- What `Forms` says of an instruction. -/
def Forms.Statement (i : Instr) : Prop :=
  i.wf = true ∧ (encode i).length = i.length ∧ (encode i).head? = some (opcodeByte i)

theorem Forms.adcImm (imm8 : Byte) : Forms.Statement (.adcImm imm8) := ⟨rfl, rfl, rfl⟩
theorem Forms.adcZp (zp8 : Byte) : Forms.Statement (.adcZp zp8) := ⟨rfl, rfl, rfl⟩
theorem Forms.adcZpx (zp8 : Byte) : Forms.Statement (.adcZpx zp8) := ⟨rfl, rfl, rfl⟩
theorem Forms.adcAbs (addr : Addr) : Forms.Statement (.adcAbs addr) := ⟨rfl, rfl, rfl⟩
theorem Forms.adcAbsx (addr : Addr) : Forms.Statement (.adcAbsx addr) := ⟨rfl, rfl, rfl⟩
theorem Forms.adcAbsy (addr : Addr) : Forms.Statement (.adcAbsy addr) := ⟨rfl, rfl, rfl⟩
theorem Forms.adcIndx (zp8 : Byte) : Forms.Statement (.adcIndx zp8) := ⟨rfl, rfl, rfl⟩
theorem Forms.adcIndy (zp8 : Byte) : Forms.Statement (.adcIndy zp8) := ⟨rfl, rfl, rfl⟩
theorem Forms.sbcImm (imm8 : Byte) : Forms.Statement (.sbcImm imm8) := ⟨rfl, rfl, rfl⟩
theorem Forms.sbcZp (zp8 : Byte) : Forms.Statement (.sbcZp zp8) := ⟨rfl, rfl, rfl⟩
theorem Forms.sbcZpx (zp8 : Byte) : Forms.Statement (.sbcZpx zp8) := ⟨rfl, rfl, rfl⟩
theorem Forms.sbcAbs (addr : Addr) : Forms.Statement (.sbcAbs addr) := ⟨rfl, rfl, rfl⟩
theorem Forms.sbcAbsx (addr : Addr) : Forms.Statement (.sbcAbsx addr) := ⟨rfl, rfl, rfl⟩
theorem Forms.sbcAbsy (addr : Addr) : Forms.Statement (.sbcAbsy addr) := ⟨rfl, rfl, rfl⟩
theorem Forms.sbcIndx (zp8 : Byte) : Forms.Statement (.sbcIndx zp8) := ⟨rfl, rfl, rfl⟩
theorem Forms.sbcIndy (zp8 : Byte) : Forms.Statement (.sbcIndy zp8) := ⟨rfl, rfl, rfl⟩
theorem Forms.cmpImm (imm8 : Byte) : Forms.Statement (.cmpImm imm8) := ⟨rfl, rfl, rfl⟩
theorem Forms.cmpZp (zp8 : Byte) : Forms.Statement (.cmpZp zp8) := ⟨rfl, rfl, rfl⟩
theorem Forms.cmpZpx (zp8 : Byte) : Forms.Statement (.cmpZpx zp8) := ⟨rfl, rfl, rfl⟩
theorem Forms.cmpAbs (addr : Addr) : Forms.Statement (.cmpAbs addr) := ⟨rfl, rfl, rfl⟩
theorem Forms.cmpAbsx (addr : Addr) : Forms.Statement (.cmpAbsx addr) := ⟨rfl, rfl, rfl⟩
theorem Forms.cmpAbsy (addr : Addr) : Forms.Statement (.cmpAbsy addr) := ⟨rfl, rfl, rfl⟩
theorem Forms.cmpIndx (zp8 : Byte) : Forms.Statement (.cmpIndx zp8) := ⟨rfl, rfl, rfl⟩
theorem Forms.cmpIndy (zp8 : Byte) : Forms.Statement (.cmpIndy zp8) := ⟨rfl, rfl, rfl⟩
theorem Forms.cpxImm (imm8 : Byte) : Forms.Statement (.cpxImm imm8) := ⟨rfl, rfl, rfl⟩
theorem Forms.cpxZp (zp8 : Byte) : Forms.Statement (.cpxZp zp8) := ⟨rfl, rfl, rfl⟩
theorem Forms.cpxAbs (addr : Addr) : Forms.Statement (.cpxAbs addr) := ⟨rfl, rfl, rfl⟩
theorem Forms.cpyImm (imm8 : Byte) : Forms.Statement (.cpyImm imm8) := ⟨rfl, rfl, rfl⟩
theorem Forms.cpyZp (zp8 : Byte) : Forms.Statement (.cpyZp zp8) := ⟨rfl, rfl, rfl⟩
theorem Forms.cpyAbs (addr : Addr) : Forms.Statement (.cpyAbs addr) := ⟨rfl, rfl, rfl⟩
theorem Forms.andImm (imm8 : Byte) : Forms.Statement (.andImm imm8) := ⟨rfl, rfl, rfl⟩
theorem Forms.andZp (zp8 : Byte) : Forms.Statement (.andZp zp8) := ⟨rfl, rfl, rfl⟩
theorem Forms.andZpx (zp8 : Byte) : Forms.Statement (.andZpx zp8) := ⟨rfl, rfl, rfl⟩
theorem Forms.andAbs (addr : Addr) : Forms.Statement (.andAbs addr) := ⟨rfl, rfl, rfl⟩
theorem Forms.andAbsx (addr : Addr) : Forms.Statement (.andAbsx addr) := ⟨rfl, rfl, rfl⟩
theorem Forms.andAbsy (addr : Addr) : Forms.Statement (.andAbsy addr) := ⟨rfl, rfl, rfl⟩
theorem Forms.andIndx (zp8 : Byte) : Forms.Statement (.andIndx zp8) := ⟨rfl, rfl, rfl⟩
theorem Forms.andIndy (zp8 : Byte) : Forms.Statement (.andIndy zp8) := ⟨rfl, rfl, rfl⟩
theorem Forms.oraImm (imm8 : Byte) : Forms.Statement (.oraImm imm8) := ⟨rfl, rfl, rfl⟩
theorem Forms.oraZp (zp8 : Byte) : Forms.Statement (.oraZp zp8) := ⟨rfl, rfl, rfl⟩
theorem Forms.oraZpx (zp8 : Byte) : Forms.Statement (.oraZpx zp8) := ⟨rfl, rfl, rfl⟩
theorem Forms.oraAbs (addr : Addr) : Forms.Statement (.oraAbs addr) := ⟨rfl, rfl, rfl⟩
theorem Forms.oraAbsx (addr : Addr) : Forms.Statement (.oraAbsx addr) := ⟨rfl, rfl, rfl⟩
theorem Forms.oraAbsy (addr : Addr) : Forms.Statement (.oraAbsy addr) := ⟨rfl, rfl, rfl⟩
theorem Forms.oraIndx (zp8 : Byte) : Forms.Statement (.oraIndx zp8) := ⟨rfl, rfl, rfl⟩
theorem Forms.oraIndy (zp8 : Byte) : Forms.Statement (.oraIndy zp8) := ⟨rfl, rfl, rfl⟩
theorem Forms.eorImm (imm8 : Byte) : Forms.Statement (.eorImm imm8) := ⟨rfl, rfl, rfl⟩
theorem Forms.eorZp (zp8 : Byte) : Forms.Statement (.eorZp zp8) := ⟨rfl, rfl, rfl⟩
theorem Forms.eorZpx (zp8 : Byte) : Forms.Statement (.eorZpx zp8) := ⟨rfl, rfl, rfl⟩
theorem Forms.eorAbs (addr : Addr) : Forms.Statement (.eorAbs addr) := ⟨rfl, rfl, rfl⟩
theorem Forms.eorAbsx (addr : Addr) : Forms.Statement (.eorAbsx addr) := ⟨rfl, rfl, rfl⟩
theorem Forms.eorAbsy (addr : Addr) : Forms.Statement (.eorAbsy addr) := ⟨rfl, rfl, rfl⟩
theorem Forms.eorIndx (zp8 : Byte) : Forms.Statement (.eorIndx zp8) := ⟨rfl, rfl, rfl⟩
theorem Forms.eorIndy (zp8 : Byte) : Forms.Statement (.eorIndy zp8) := ⟨rfl, rfl, rfl⟩
theorem Forms.bitZp (zp8 : Byte) : Forms.Statement (.bitZp zp8) := ⟨rfl, rfl, rfl⟩
theorem Forms.bitAbs (addr : Addr) : Forms.Statement (.bitAbs addr) := ⟨rfl, rfl, rfl⟩
theorem Forms.ldaImm (imm8 : Byte) : Forms.Statement (.ldaImm imm8) := ⟨rfl, rfl, rfl⟩
theorem Forms.ldaZp (zp8 : Byte) : Forms.Statement (.ldaZp zp8) := ⟨rfl, rfl, rfl⟩
theorem Forms.ldaZpx (zp8 : Byte) : Forms.Statement (.ldaZpx zp8) := ⟨rfl, rfl, rfl⟩
theorem Forms.ldaAbs (addr : Addr) : Forms.Statement (.ldaAbs addr) := ⟨rfl, rfl, rfl⟩
theorem Forms.ldaAbsx (addr : Addr) : Forms.Statement (.ldaAbsx addr) := ⟨rfl, rfl, rfl⟩
theorem Forms.ldaAbsy (addr : Addr) : Forms.Statement (.ldaAbsy addr) := ⟨rfl, rfl, rfl⟩
theorem Forms.ldaIndx (zp8 : Byte) : Forms.Statement (.ldaIndx zp8) := ⟨rfl, rfl, rfl⟩
theorem Forms.ldaIndy (zp8 : Byte) : Forms.Statement (.ldaIndy zp8) := ⟨rfl, rfl, rfl⟩
theorem Forms.ldxImm (imm8 : Byte) : Forms.Statement (.ldxImm imm8) := ⟨rfl, rfl, rfl⟩
theorem Forms.ldxZp (zp8 : Byte) : Forms.Statement (.ldxZp zp8) := ⟨rfl, rfl, rfl⟩
theorem Forms.ldxZpy (zp8 : Byte) : Forms.Statement (.ldxZpy zp8) := ⟨rfl, rfl, rfl⟩
theorem Forms.ldxAbs (addr : Addr) : Forms.Statement (.ldxAbs addr) := ⟨rfl, rfl, rfl⟩
theorem Forms.ldxAbsy (addr : Addr) : Forms.Statement (.ldxAbsy addr) := ⟨rfl, rfl, rfl⟩
theorem Forms.ldyImm (imm8 : Byte) : Forms.Statement (.ldyImm imm8) := ⟨rfl, rfl, rfl⟩
theorem Forms.ldyZp (zp8 : Byte) : Forms.Statement (.ldyZp zp8) := ⟨rfl, rfl, rfl⟩
theorem Forms.ldyZpx (zp8 : Byte) : Forms.Statement (.ldyZpx zp8) := ⟨rfl, rfl, rfl⟩
theorem Forms.ldyAbs (addr : Addr) : Forms.Statement (.ldyAbs addr) := ⟨rfl, rfl, rfl⟩
theorem Forms.ldyAbsx (addr : Addr) : Forms.Statement (.ldyAbsx addr) := ⟨rfl, rfl, rfl⟩
theorem Forms.staZp (zp8 : Byte) : Forms.Statement (.staZp zp8) := ⟨rfl, rfl, rfl⟩
theorem Forms.staZpx (zp8 : Byte) : Forms.Statement (.staZpx zp8) := ⟨rfl, rfl, rfl⟩
theorem Forms.staAbs (addr : Addr) : Forms.Statement (.staAbs addr) := ⟨rfl, rfl, rfl⟩
theorem Forms.staAbsx (addr : Addr) : Forms.Statement (.staAbsx addr) := ⟨rfl, rfl, rfl⟩
theorem Forms.staAbsy (addr : Addr) : Forms.Statement (.staAbsy addr) := ⟨rfl, rfl, rfl⟩
theorem Forms.staIndx (zp8 : Byte) : Forms.Statement (.staIndx zp8) := ⟨rfl, rfl, rfl⟩
theorem Forms.staIndy (zp8 : Byte) : Forms.Statement (.staIndy zp8) := ⟨rfl, rfl, rfl⟩
theorem Forms.stxZp (zp8 : Byte) : Forms.Statement (.stxZp zp8) := ⟨rfl, rfl, rfl⟩
theorem Forms.stxZpy (zp8 : Byte) : Forms.Statement (.stxZpy zp8) := ⟨rfl, rfl, rfl⟩
theorem Forms.stxAbs (addr : Addr) : Forms.Statement (.stxAbs addr) := ⟨rfl, rfl, rfl⟩
theorem Forms.styZp (zp8 : Byte) : Forms.Statement (.styZp zp8) := ⟨rfl, rfl, rfl⟩
theorem Forms.styZpx (zp8 : Byte) : Forms.Statement (.styZpx zp8) := ⟨rfl, rfl, rfl⟩
theorem Forms.styAbs (addr : Addr) : Forms.Statement (.styAbs addr) := ⟨rfl, rfl, rfl⟩
theorem Forms.tax : Forms.Statement (.tax) := ⟨rfl, rfl, rfl⟩
theorem Forms.tay : Forms.Statement (.tay) := ⟨rfl, rfl, rfl⟩
theorem Forms.txa : Forms.Statement (.txa) := ⟨rfl, rfl, rfl⟩
theorem Forms.tya : Forms.Statement (.tya) := ⟨rfl, rfl, rfl⟩
theorem Forms.incZp (zp8 : Byte) : Forms.Statement (.incZp zp8) := ⟨rfl, rfl, rfl⟩
theorem Forms.incZpx (zp8 : Byte) : Forms.Statement (.incZpx zp8) := ⟨rfl, rfl, rfl⟩
theorem Forms.incAbs (addr : Addr) : Forms.Statement (.incAbs addr) := ⟨rfl, rfl, rfl⟩
theorem Forms.incAbsx (addr : Addr) : Forms.Statement (.incAbsx addr) := ⟨rfl, rfl, rfl⟩
theorem Forms.decZp (zp8 : Byte) : Forms.Statement (.decZp zp8) := ⟨rfl, rfl, rfl⟩
theorem Forms.decZpx (zp8 : Byte) : Forms.Statement (.decZpx zp8) := ⟨rfl, rfl, rfl⟩
theorem Forms.decAbs (addr : Addr) : Forms.Statement (.decAbs addr) := ⟨rfl, rfl, rfl⟩
theorem Forms.decAbsx (addr : Addr) : Forms.Statement (.decAbsx addr) := ⟨rfl, rfl, rfl⟩
theorem Forms.inx : Forms.Statement (.inx) := ⟨rfl, rfl, rfl⟩
theorem Forms.iny : Forms.Statement (.iny) := ⟨rfl, rfl, rfl⟩
theorem Forms.dex : Forms.Statement (.dex) := ⟨rfl, rfl, rfl⟩
theorem Forms.dey : Forms.Statement (.dey) := ⟨rfl, rfl, rfl⟩
theorem Forms.aslAcc : Forms.Statement (.aslAcc) := ⟨rfl, rfl, rfl⟩
theorem Forms.aslZp (zp8 : Byte) : Forms.Statement (.aslZp zp8) := ⟨rfl, rfl, rfl⟩
theorem Forms.aslZpx (zp8 : Byte) : Forms.Statement (.aslZpx zp8) := ⟨rfl, rfl, rfl⟩
theorem Forms.aslAbs (addr : Addr) : Forms.Statement (.aslAbs addr) := ⟨rfl, rfl, rfl⟩
theorem Forms.aslAbsx (addr : Addr) : Forms.Statement (.aslAbsx addr) := ⟨rfl, rfl, rfl⟩
theorem Forms.lsrAcc : Forms.Statement (.lsrAcc) := ⟨rfl, rfl, rfl⟩
theorem Forms.lsrZp (zp8 : Byte) : Forms.Statement (.lsrZp zp8) := ⟨rfl, rfl, rfl⟩
theorem Forms.lsrZpx (zp8 : Byte) : Forms.Statement (.lsrZpx zp8) := ⟨rfl, rfl, rfl⟩
theorem Forms.lsrAbs (addr : Addr) : Forms.Statement (.lsrAbs addr) := ⟨rfl, rfl, rfl⟩
theorem Forms.lsrAbsx (addr : Addr) : Forms.Statement (.lsrAbsx addr) := ⟨rfl, rfl, rfl⟩
theorem Forms.rolAcc : Forms.Statement (.rolAcc) := ⟨rfl, rfl, rfl⟩
theorem Forms.rolZp (zp8 : Byte) : Forms.Statement (.rolZp zp8) := ⟨rfl, rfl, rfl⟩
theorem Forms.rolZpx (zp8 : Byte) : Forms.Statement (.rolZpx zp8) := ⟨rfl, rfl, rfl⟩
theorem Forms.rolAbs (addr : Addr) : Forms.Statement (.rolAbs addr) := ⟨rfl, rfl, rfl⟩
theorem Forms.rolAbsx (addr : Addr) : Forms.Statement (.rolAbsx addr) := ⟨rfl, rfl, rfl⟩
theorem Forms.rorAcc : Forms.Statement (.rorAcc) := ⟨rfl, rfl, rfl⟩
theorem Forms.rorZp (zp8 : Byte) : Forms.Statement (.rorZp zp8) := ⟨rfl, rfl, rfl⟩
theorem Forms.rorZpx (zp8 : Byte) : Forms.Statement (.rorZpx zp8) := ⟨rfl, rfl, rfl⟩
theorem Forms.rorAbs (addr : Addr) : Forms.Statement (.rorAbs addr) := ⟨rfl, rfl, rfl⟩
theorem Forms.rorAbsx (addr : Addr) : Forms.Statement (.rorAbsx addr) := ⟨rfl, rfl, rfl⟩
theorem Forms.bpl (rel8 : Byte) : Forms.Statement (.bpl rel8) := ⟨rfl, rfl, rfl⟩
theorem Forms.bmi (rel8 : Byte) : Forms.Statement (.bmi rel8) := ⟨rfl, rfl, rfl⟩
theorem Forms.bvc (rel8 : Byte) : Forms.Statement (.bvc rel8) := ⟨rfl, rfl, rfl⟩
theorem Forms.bvs (rel8 : Byte) : Forms.Statement (.bvs rel8) := ⟨rfl, rfl, rfl⟩
theorem Forms.bcc (rel8 : Byte) : Forms.Statement (.bcc rel8) := ⟨rfl, rfl, rfl⟩
theorem Forms.bcs (rel8 : Byte) : Forms.Statement (.bcs rel8) := ⟨rfl, rfl, rfl⟩
theorem Forms.bne (rel8 : Byte) : Forms.Statement (.bne rel8) := ⟨rfl, rfl, rfl⟩
theorem Forms.beq (rel8 : Byte) : Forms.Statement (.beq rel8) := ⟨rfl, rfl, rfl⟩
theorem Forms.tsx : Forms.Statement (.tsx) := ⟨rfl, rfl, rfl⟩
theorem Forms.txs : Forms.Statement (.txs) := ⟨rfl, rfl, rfl⟩
theorem Forms.pha : Forms.Statement (.pha) := ⟨rfl, rfl, rfl⟩
theorem Forms.php : Forms.Statement (.php) := ⟨rfl, rfl, rfl⟩
theorem Forms.pla : Forms.Statement (.pla) := ⟨rfl, rfl, rfl⟩
theorem Forms.plp : Forms.Statement (.plp) := ⟨rfl, rfl, rfl⟩
theorem Forms.jmpAbs (addr : Addr) : Forms.Statement (.jmpAbs addr) := ⟨rfl, rfl, rfl⟩
theorem Forms.jmpInd (ptr : Addr) : Forms.Statement (.jmpInd ptr) := ⟨rfl, rfl, rfl⟩
theorem Forms.jsr (addr : Addr) : Forms.Statement (.jsr addr) := ⟨rfl, rfl, rfl⟩
theorem Forms.rts : Forms.Statement (.rts) := ⟨rfl, rfl, rfl⟩
theorem Forms.brk : Forms.Statement (.brk) := ⟨rfl, rfl, rfl⟩
theorem Forms.rti : Forms.Statement (.rti) := ⟨rfl, rfl, rfl⟩
theorem Forms.clc : Forms.Statement (.clc) := ⟨rfl, rfl, rfl⟩
theorem Forms.sec : Forms.Statement (.sec) := ⟨rfl, rfl, rfl⟩
theorem Forms.cli : Forms.Statement (.cli) := ⟨rfl, rfl, rfl⟩
theorem Forms.sei : Forms.Statement (.sei) := ⟨rfl, rfl, rfl⟩
theorem Forms.clv : Forms.Statement (.clv) := ⟨rfl, rfl, rfl⟩
theorem Forms.cld : Forms.Statement (.cld) := ⟨rfl, rfl, rfl⟩
theorem Forms.sed : Forms.Statement (.sed) := ⟨rfl, rfl, rfl⟩
theorem Forms.nop : Forms.Statement (.nop) := ⟨rfl, rfl, rfl⟩

end Sys2Proof.Laws
end

