-- ==== Sys2Proof/Laws/Trace.lean ====
section
/-!
SUPPORT. The accesses of a step over what its fetch finds, and what replaying reads alone does.
-/

namespace Sys2Proof.Machine

theorem stepAccesses_unknown {s : State} {op : Byte} (h : fetchInstr s = .unknown op) : stepAccesses s = [readAt s s.pc] := by
  simp only [stepAccesses, h]

theorem stepAccesses_decimal {s t : State} {i : Instr} (h : fetchInstr s = .instr i t) (hi : isDecimalSensitive i = true)
    (hd : s.flag .D = true) : stepAccesses s = [readAt s s.pc] := by
  simp only [stepAccesses, h, hi, hd, Bool.and_self, if_true]

theorem stepAccesses_instr {s t : State} {i : Instr} (h : fetchInstr s = .instr i t)
    (hd : ¬ (isDecimalSensitive i = true ∧ s.flag .D = true)) :
    stepAccesses s = fetchAccesses s i.length s.pc ++ dataAccesses i t := by
  simp only [stepAccesses, h, Bool.and_eq_true, if_neg hd]

/-- An ADC or SBC that answers a next state ran with D clear. -/
theorem not_decimal_of_next {i : Instr} {s t : State} (h : exec i s = .next t) :
    ¬ (isDecimalSensitive i = true ∧ s.flag .D = true) := by
  rintro ⟨hi, hd⟩
  have hs := exec_shape i
  rw [isDecimalSensitive] at hi
  generalize i.mnemonic = m, i.operand = o, exec i = e at hs hi h
  cases hs with
  | adc src => rw [adc_fault hd] at h; cases h
  | sbc src => rw [sbc_fault hd] at h; cases h
  | _ => exact absurd hi (by decide)

@[simp] theorem fetchAccesses_length (s : State) (n : Nat) (addr : Addr) : (fetchAccesses s n addr).length = n := by
  induction n generalizing addr with
  | zero => rfl
  | succ n ih => simp only [fetchAccesses, List.length_cons, ih]

@[simp] theorem replay_fetchAccesses (s : State) (n : Nat) (addr : Addr) (l : List Access) :
    replay (fetchAccesses s n addr ++ l) s.mem = replay l s.mem := by
  induction n generalizing addr with
  | zero => rfl
  | succ n ih => simp [fetchAccesses, readAt, replay, State.byteAt, ih]

@[simp] theorem replay_pointerAccesses (m : MemOperand) (s : State) (l : List Access) :
    replay (pointerAccesses m s ++ l) s.mem = replay l s.mem := by
  cases m <;> simp [pointerAccesses, zpPtrAccesses, readAt, replay, State.byteAt]

end Sys2Proof.Machine
end

