-- ==== Sys2Proof/Tests/Slice0.lean ====
section
/-!
SUPPORT. The model's own tests. The expected values are the spec's: the encodings of the instruction rules (R121 to R227), and the
rows of 95_test_vectors.md, whose id is in each comment. At the end, one named witness for the hypotheses of each statement that
has some.
-/

namespace Sys2Proof.Tests

open Sys2Proof.Machine

/-! ### The small states of the tests -/

/-- Put bytes from an address upwards. -/
def put (addr : Addr) (bytes : List Byte) (s : State) : State := s.setMem (writeBytes bytes addr s.mem)

/-- The start state of 95_test_vectors.md, which is State.reset, with instruction bytes at 0x0200. -/
def load (bytes : List Byte) : State := put 0x0200 bytes State.reset

/-- The next state, if there is one. -/
def after : Result → Option State
  | .next s => some s
  | .fault _ => none
  | .refused _ => none

/-- The fault, if there is one. -/
def faultOf : Result → Option Fault
  | .next _ => none
  | .fault f => some f
  | .refused _ => none

/-- The refusal, if there is one. -/
def refusalOf : Result → Option Refusal
  | .next _ => none
  | .fault _ => none
  | .refused r => some r

/-- What a field of the next state is. -/
def see {α : Type} (f : State → α) (s : State) : Option α := (after (step s)).map f

/-! ### Well-formedness: a (mnemonic, mode) pair that the rules do not list is refused -/

theorem test_wf_refuses_sta_immediate : formExists .STA .imm = false := by decide
theorem test_wf_refuses_bit_immediate : formExists .BIT .imm = false := by decide
theorem test_wf_refuses_ldx_absx : formExists .LDX .absx = false := by decide
theorem test_wf_refuses_ldx_zpx : formExists .LDX .zpx = false := by decide
theorem test_wf_refuses_stx_zpx : formExists .STX .zpx = false := by decide
theorem test_wf_refuses_sty_absx : formExists .STY .absx = false := by decide
theorem test_wf_refuses_jmp_indx : formExists .JMP .indx = false := by decide
theorem test_wf_refuses_inc_accumulator : formExists .INC .acc = false := by decide
theorem test_wf_refuses_jsr_indirect : formExists .JSR .ind = false := by decide
theorem test_wf_accepts_asl_accumulator : formExists .ASL .acc = true := by decide
theorem test_wf_accepts_the_encoded : Instr.wf (.jmpInd 0x1234) = true := by decide

/-! ### Decoding: every constructor, by a word written out from the "Encoding" of its rule -/

/-- Rules R121, R122. -/
theorem test_decode_add_subtract :
    decode [0x69, 0x9C] = .instr (.adcImm 0x9C) [] ∧
    decode [0x65, 0x9C] = .instr (.adcZp 0x9C) [] ∧
    decode [0x75, 0x9C] = .instr (.adcZpx 0x9C) [] ∧
    decode [0x6D, 0x34, 0x92] = .instr (.adcAbs 0x9234) [] ∧
    decode [0x7D, 0x34, 0x92] = .instr (.adcAbsx 0x9234) [] ∧
    decode [0x79, 0x34, 0x92] = .instr (.adcAbsy 0x9234) [] ∧
    decode [0x61, 0x9C] = .instr (.adcIndx 0x9C) [] ∧
    decode [0x71, 0x9C] = .instr (.adcIndy 0x9C) [] ∧
    decode [0xE9, 0x9C] = .instr (.sbcImm 0x9C) [] ∧
    decode [0xE5, 0x9C] = .instr (.sbcZp 0x9C) [] ∧
    decode [0xF5, 0x9C] = .instr (.sbcZpx 0x9C) [] ∧
    decode [0xED, 0x34, 0x92] = .instr (.sbcAbs 0x9234) [] ∧
    decode [0xFD, 0x34, 0x92] = .instr (.sbcAbsx 0x9234) [] ∧
    decode [0xF9, 0x34, 0x92] = .instr (.sbcAbsy 0x9234) [] ∧
    decode [0xE1, 0x9C] = .instr (.sbcIndx 0x9C) [] ∧
    decode [0xF1, 0x9C] = .instr (.sbcIndy 0x9C) [] := by
  decide

/-- Rules R125, R126, R127. -/
theorem test_decode_compare :
    decode [0xC9, 0x9C] = .instr (.cmpImm 0x9C) [] ∧
    decode [0xC5, 0x9C] = .instr (.cmpZp 0x9C) [] ∧
    decode [0xD5, 0x9C] = .instr (.cmpZpx 0x9C) [] ∧
    decode [0xCD, 0x34, 0x92] = .instr (.cmpAbs 0x9234) [] ∧
    decode [0xDD, 0x34, 0x92] = .instr (.cmpAbsx 0x9234) [] ∧
    decode [0xD9, 0x34, 0x92] = .instr (.cmpAbsy 0x9234) [] ∧
    decode [0xC1, 0x9C] = .instr (.cmpIndx 0x9C) [] ∧
    decode [0xD1, 0x9C] = .instr (.cmpIndy 0x9C) [] ∧
    decode [0xE0, 0x9C] = .instr (.cpxImm 0x9C) [] ∧
    decode [0xE4, 0x9C] = .instr (.cpxZp 0x9C) [] ∧
    decode [0xEC, 0x34, 0x92] = .instr (.cpxAbs 0x9234) [] ∧
    decode [0xC0, 0x9C] = .instr (.cpyImm 0x9C) [] ∧
    decode [0xC4, 0x9C] = .instr (.cpyZp 0x9C) [] ∧
    decode [0xCC, 0x34, 0x92] = .instr (.cpyAbs 0x9234) [] := by
  decide

/-- Rules R128, R129, R130, R131. -/
theorem test_decode_logic :
    decode [0x29, 0x9C] = .instr (.andImm 0x9C) [] ∧
    decode [0x25, 0x9C] = .instr (.andZp 0x9C) [] ∧
    decode [0x35, 0x9C] = .instr (.andZpx 0x9C) [] ∧
    decode [0x2D, 0x34, 0x92] = .instr (.andAbs 0x9234) [] ∧
    decode [0x3D, 0x34, 0x92] = .instr (.andAbsx 0x9234) [] ∧
    decode [0x39, 0x34, 0x92] = .instr (.andAbsy 0x9234) [] ∧
    decode [0x21, 0x9C] = .instr (.andIndx 0x9C) [] ∧
    decode [0x31, 0x9C] = .instr (.andIndy 0x9C) [] ∧
    decode [0x09, 0x9C] = .instr (.oraImm 0x9C) [] ∧
    decode [0x05, 0x9C] = .instr (.oraZp 0x9C) [] ∧
    decode [0x15, 0x9C] = .instr (.oraZpx 0x9C) [] ∧
    decode [0x0D, 0x34, 0x92] = .instr (.oraAbs 0x9234) [] ∧
    decode [0x1D, 0x34, 0x92] = .instr (.oraAbsx 0x9234) [] ∧
    decode [0x19, 0x34, 0x92] = .instr (.oraAbsy 0x9234) [] ∧
    decode [0x01, 0x9C] = .instr (.oraIndx 0x9C) [] ∧
    decode [0x11, 0x9C] = .instr (.oraIndy 0x9C) [] ∧
    decode [0x49, 0x9C] = .instr (.eorImm 0x9C) [] ∧
    decode [0x45, 0x9C] = .instr (.eorZp 0x9C) [] ∧
    decode [0x55, 0x9C] = .instr (.eorZpx 0x9C) [] ∧
    decode [0x4D, 0x34, 0x92] = .instr (.eorAbs 0x9234) [] ∧
    decode [0x5D, 0x34, 0x92] = .instr (.eorAbsx 0x9234) [] ∧
    decode [0x59, 0x34, 0x92] = .instr (.eorAbsy 0x9234) [] ∧
    decode [0x41, 0x9C] = .instr (.eorIndx 0x9C) [] ∧
    decode [0x51, 0x9C] = .instr (.eorIndy 0x9C) [] ∧
    decode [0x24, 0x9C] = .instr (.bitZp 0x9C) [] ∧
    decode [0x2C, 0x34, 0x92] = .instr (.bitAbs 0x9234) [] := by
  decide

/-- Rules R140, R141, R142. -/
theorem test_decode_loads :
    decode [0xA9, 0x9C] = .instr (.ldaImm 0x9C) [] ∧
    decode [0xA5, 0x9C] = .instr (.ldaZp 0x9C) [] ∧
    decode [0xB5, 0x9C] = .instr (.ldaZpx 0x9C) [] ∧
    decode [0xAD, 0x34, 0x92] = .instr (.ldaAbs 0x9234) [] ∧
    decode [0xBD, 0x34, 0x92] = .instr (.ldaAbsx 0x9234) [] ∧
    decode [0xB9, 0x34, 0x92] = .instr (.ldaAbsy 0x9234) [] ∧
    decode [0xA1, 0x9C] = .instr (.ldaIndx 0x9C) [] ∧
    decode [0xB1, 0x9C] = .instr (.ldaIndy 0x9C) [] ∧
    decode [0xA2, 0x9C] = .instr (.ldxImm 0x9C) [] ∧
    decode [0xA6, 0x9C] = .instr (.ldxZp 0x9C) [] ∧
    decode [0xB6, 0x9C] = .instr (.ldxZpy 0x9C) [] ∧
    decode [0xAE, 0x34, 0x92] = .instr (.ldxAbs 0x9234) [] ∧
    decode [0xBE, 0x34, 0x92] = .instr (.ldxAbsy 0x9234) [] ∧
    decode [0xA0, 0x9C] = .instr (.ldyImm 0x9C) [] ∧
    decode [0xA4, 0x9C] = .instr (.ldyZp 0x9C) [] ∧
    decode [0xB4, 0x9C] = .instr (.ldyZpx 0x9C) [] ∧
    decode [0xAC, 0x34, 0x92] = .instr (.ldyAbs 0x9234) [] ∧
    decode [0xBC, 0x34, 0x92] = .instr (.ldyAbsx 0x9234) [] := by
  decide

/-- Rules R143, R144, R145. -/
theorem test_decode_stores :
    decode [0x85, 0x9C] = .instr (.staZp 0x9C) [] ∧
    decode [0x95, 0x9C] = .instr (.staZpx 0x9C) [] ∧
    decode [0x8D, 0x34, 0x92] = .instr (.staAbs 0x9234) [] ∧
    decode [0x9D, 0x34, 0x92] = .instr (.staAbsx 0x9234) [] ∧
    decode [0x99, 0x34, 0x92] = .instr (.staAbsy 0x9234) [] ∧
    decode [0x81, 0x9C] = .instr (.staIndx 0x9C) [] ∧
    decode [0x91, 0x9C] = .instr (.staIndy 0x9C) [] ∧
    decode [0x86, 0x9C] = .instr (.stxZp 0x9C) [] ∧
    decode [0x96, 0x9C] = .instr (.stxZpy 0x9C) [] ∧
    decode [0x8E, 0x34, 0x92] = .instr (.stxAbs 0x9234) [] ∧
    decode [0x84, 0x9C] = .instr (.styZp 0x9C) [] ∧
    decode [0x94, 0x9C] = .instr (.styZpx 0x9C) [] ∧
    decode [0x8C, 0x34, 0x92] = .instr (.styAbs 0x9234) [] := by
  decide

/-- Rules R146, R147, R148, R149, R194, R195. -/
theorem test_decode_transfers :
    decode [0xAA] = .instr .tax [] ∧
    decode [0xA8] = .instr .tay [] ∧
    decode [0x8A] = .instr .txa [] ∧
    decode [0x98] = .instr .tya [] ∧
    decode [0xBA] = .instr .tsx [] ∧
    decode [0x9A] = .instr .txs [] := by
  decide

/-- Rules R150, R151, R152, R153, R154, R155. -/
theorem test_decode_increment :
    decode [0xE6, 0x9C] = .instr (.incZp 0x9C) [] ∧
    decode [0xF6, 0x9C] = .instr (.incZpx 0x9C) [] ∧
    decode [0xEE, 0x34, 0x92] = .instr (.incAbs 0x9234) [] ∧
    decode [0xFE, 0x34, 0x92] = .instr (.incAbsx 0x9234) [] ∧
    decode [0xC6, 0x9C] = .instr (.decZp 0x9C) [] ∧
    decode [0xD6, 0x9C] = .instr (.decZpx 0x9C) [] ∧
    decode [0xCE, 0x34, 0x92] = .instr (.decAbs 0x9234) [] ∧
    decode [0xDE, 0x34, 0x92] = .instr (.decAbsx 0x9234) [] ∧
    decode [0xE8] = .instr .inx [] ∧
    decode [0xC8] = .instr .iny [] ∧
    decode [0xCA] = .instr .dex [] ∧
    decode [0x88] = .instr .dey [] := by
  decide

/-- Rules R170, R171. -/
theorem test_decode_shifts :
    decode [0x0A] = .instr .aslAcc [] ∧
    decode [0x06, 0x9C] = .instr (.aslZp 0x9C) [] ∧
    decode [0x16, 0x9C] = .instr (.aslZpx 0x9C) [] ∧
    decode [0x0E, 0x34, 0x92] = .instr (.aslAbs 0x9234) [] ∧
    decode [0x1E, 0x34, 0x92] = .instr (.aslAbsx 0x9234) [] ∧
    decode [0x4A] = .instr .lsrAcc [] ∧
    decode [0x46, 0x9C] = .instr (.lsrZp 0x9C) [] ∧
    decode [0x56, 0x9C] = .instr (.lsrZpx 0x9C) [] ∧
    decode [0x4E, 0x34, 0x92] = .instr (.lsrAbs 0x9234) [] ∧
    decode [0x5E, 0x34, 0x92] = .instr (.lsrAbsx 0x9234) [] := by
  decide

/-- Rules R172, R173. -/
theorem test_decode_rotates :
    decode [0x2A] = .instr .rolAcc [] ∧
    decode [0x26, 0x9C] = .instr (.rolZp 0x9C) [] ∧
    decode [0x36, 0x9C] = .instr (.rolZpx 0x9C) [] ∧
    decode [0x2E, 0x34, 0x92] = .instr (.rolAbs 0x9234) [] ∧
    decode [0x3E, 0x34, 0x92] = .instr (.rolAbsx 0x9234) [] ∧
    decode [0x6A] = .instr .rorAcc [] ∧
    decode [0x66, 0x9C] = .instr (.rorZp 0x9C) [] ∧
    decode [0x76, 0x9C] = .instr (.rorZpx 0x9C) [] ∧
    decode [0x6E, 0x34, 0x92] = .instr (.rorAbs 0x9234) [] ∧
    decode [0x7E, 0x34, 0x92] = .instr (.rorAbsx 0x9234) [] := by
  decide

/-- Rules R175, R176, R177, R178, R179, R180, R181, R182. -/
theorem test_decode_branches :
    decode [0x10, 0x9C] = .instr (.bpl 0x9C) [] ∧
    decode [0x30, 0x9C] = .instr (.bmi 0x9C) [] ∧
    decode [0x50, 0x9C] = .instr (.bvc 0x9C) [] ∧
    decode [0x70, 0x9C] = .instr (.bvs 0x9C) [] ∧
    decode [0x90, 0x9C] = .instr (.bcc 0x9C) [] ∧
    decode [0xB0, 0x9C] = .instr (.bcs 0x9C) [] ∧
    decode [0xD0, 0x9C] = .instr (.bne 0x9C) [] ∧
    decode [0xF0, 0x9C] = .instr (.beq 0x9C) [] := by
  decide

/-- Rules R196, R197, R198, R199, R200, R201, R202, R203, R204, R205. -/
theorem test_decode_stack_and_jumps :
    decode [0x48] = .instr .pha [] ∧
    decode [0x08] = .instr .php [] ∧
    decode [0x68] = .instr .pla [] ∧
    decode [0x28] = .instr .plp [] ∧
    decode [0x4C, 0x34, 0x92] = .instr (.jmpAbs 0x9234) [] ∧
    decode [0x6C, 0x34, 0x92] = .instr (.jmpInd 0x9234) [] ∧
    decode [0x20, 0x34, 0x92] = .instr (.jsr 0x9234) [] ∧
    decode [0x60] = .instr .rts [] ∧
    decode [0x00] = .instr .brk [] ∧
    decode [0x40] = .instr .rti [] := by
  decide

/-- Rules R220, R221, R222, R223, R224, R225, R226, R227. -/
theorem test_decode_flags_nop :
    decode [0x18] = .instr .clc [] ∧
    decode [0x38] = .instr .sec [] ∧
    decode [0x58] = .instr .cli [] ∧
    decode [0x78] = .instr .sei [] ∧
    decode [0xB8] = .instr .clv [] ∧
    decode [0xD8] = .instr .cld [] ∧
    decode [0xF8] = .instr .sed [] ∧
    decode [0xEA] = .instr .nop [] := by
  decide

/-- An unknown opcode, a truncated instruction, and bytes after an instruction (rules R84, R81, R82). -/
theorem test_decode_rejects : decode [0x02] = .unknownOpcode 0x02 ∧ decode [0xAD, 0x34] = .truncated ∧
    decode [] = .truncated ∧ decode [0xE8, 0xE8] = .instr .inx [0xE8] := by
  decide

/-- Table words are numbered from the first byte; bits above `nbits` are zero. -/
theorem test_decode_table_word : decodeTableWord 24 0x9234AD = some (.ldaAbs 0x9234) ∧
    decodeTableWord 8 0xAD = some (.ldaAbs 0x0000) ∧ decodeTableWord 8 0x02 = none := by
  decide

/-- The first step after reset runs the placed word. -/
theorem test_step_runs_the_placed_word : see State.a (State.reset.withFetchWord 16 0x84A9) = some 0x84 := by decide

/-! ### V1 addressing modes -/

/-- V1.1. -/
theorem test_lda_zp : see (fun t => (t.a, t.p, t.cyc)) (put 0x0010 [0x55] (load [0xA5, 0x10])) =
    some (0x55, 0x00, 3) := by
  decide

/-- S3a. -/
theorem test_lda_zpx_wraps_in_page_zero : see (fun t => (t.a, t.p, t.cyc)) { put 0x017F [0x22] (put 0x007F [0x11] (load [0xB5, 0x80])) with x := 0xFF } =
    some (0x11, 0x00, 4) := by
  decide

/-- S3b. -/
theorem test_sty_zpx_wraps_in_page_zero : see (fun t => ([0x007F, 0x017F].map t.byteAt, t.p, t.cyc)) { load [0x94, 0x80] with x := 0xFF, y := 0x33 } =
    some ([0x33, 0x00], 0x00, 4) := by
  decide

/-- S3c. -/
theorem test_ldx_zpy_wraps_in_page_zero : see (fun t => (t.x, t.p, t.cyc)) { put 0x017F [0x22] (put 0x007F [0x44] (load [0xB6, 0x80])) with y := 0xFF } =
    some (0x44, 0x00, 4) := by
  decide

/-- V1.3. -/
theorem test_lda_abs_is_little_endian : see (fun t => (t.a, t.p, t.cyc)) (put 0x1234 [0x99] (load [0xAD, 0x34, 0x12])) =
    some (0x99, 0x80, 4) := by
  decide

/-- V1.4. -/
theorem test_lda_absx_no_cross : see (fun t => (t.a, t.p, t.cyc)) { put 0x12FF [0x01] (load [0xBD, 0xFE, 0x12]) with x := 0x01 } =
    some (0x01, 0x00, 4) := by
  decide

/-- V1.5. -/
theorem test_lda_absx_cross : see (fun t => (t.a, t.p, t.cyc)) { put 0x1300 [0x02] (load [0xBD, 0xFE, 0x12]) with x := 0x02 } =
    some (0x02, 0x00, 5) := by
  decide

/-- V1.6. -/
theorem test_lda_absy_wraps_at_65536 : see (fun t => (t.a, t.p, t.cyc)) { put 0x0001 [0x03] (load [0xB9, 0xFF, 0xFF]) with y := 0x02 } =
    some (0x03, 0x00, 5) := by
  decide

/-- V1.8. -/
theorem test_sta_absx_always_pays : see (fun t => (t.byteAt 0x1201, t.p, t.cyc)) { load [0x9D, 0x00, 0x12] with a := 0xAB, x := 0x01 } =
    some (0xAB, 0x00, 5) := by
  decide

/-- V1.9. -/
theorem test_sta_absy_cross : see (fun t => (t.byteAt 0x1300, t.p, t.cyc)) { load [0x99, 0xFF, 0x12] with a := 0xAB, y := 0x01 } =
    some (0xAB, 0x00, 5) := by
  decide

/-- V1.11. -/
theorem test_lda_indx_index_wraps : see (fun t => (t.a, t.p, t.cyc)) { put 0x3000 [0x78] (put 0x0002 [0x00, 0x30] (load [0xA1, 0xFE])) with x := 0x04 } =
    some (0x78, 0x00, 6) := by
  decide

/-- V1.13. -/
theorem test_lda_indx_pointer_carry : see (fun t => (t.a, t.p, t.cyc)) { put 0x5634 [0xBB] (put 0x1234 [0xAA] (put 0x00FF [0x34, 0x56] (put 0x0000 [0x12] (load [0xA1, 0x00])))) with x := 0xFF, cfg := ⟨.carry, .wrap⟩ } =
    some (0xBB, 0x80, 6) := by
  decide

/-- V1.15. -/
theorem test_lda_indy_cross : see (fun t => (t.a, t.p, t.cyc)) { put 0x3100 [0x7A] (put 0x0010 [0xF0, 0x30] (load [0xB1, 0x10])) with y := 0x10 } =
    some (0x7A, 0x00, 6) := by
  decide

/-- V1.16. -/
theorem test_lda_indy_pointer_wrap : see (fun t => (t.a, t.p, t.cyc)) { put 0x5001 [0xC2] (put 0x4001 [0xC1] (put 0x00FF [0x00, 0x50] (put 0x0000 [0x40] (load [0xB1, 0xFF])))) with y := 0x01 } =
    some (0xC1, 0x80, 5) := by
  decide

/-- V1.17. -/
theorem test_lda_indy_pointer_carry : see (fun t => (t.a, t.p, t.cyc)) { put 0x5001 [0xC2] (put 0x4001 [0xC1] (put 0x00FF [0x00, 0x50] (put 0x0000 [0x40] (load [0xB1, 0xFF])))) with y := 0x01, cfg := ⟨.carry, .wrap⟩ } =
    some (0xC2, 0x80, 5) := by
  decide

/-- V1.18. -/
theorem test_sta_indy_always_pays : see (fun t => (t.byteAt 0x3001, t.p, t.cyc)) { put 0x0010 [0x00, 0x30] (load [0x91, 0x10]) with a := 0xCD, y := 0x01 } =
    some (0xCD, 0x00, 6) := by
  decide

/-- V1.19. -/
theorem test_sta_indx : see (fun t => (t.byteAt 0x3000, t.p, t.cyc)) { put 0x0024 [0x00, 0x30] (load [0x81, 0x20]) with a := 0xCE, x := 0x04 } =
    some (0xCE, 0x00, 6) := by
  decide

/-- V1.20. -/
theorem test_inc_absx_always_pays : see (fun t => (t.byteAt 0x1201, t.p, t.cyc)) { put 0x1201 [0x41] (load [0xFE, 0x00, 0x12]) with x := 0x01 } =
    some (0x42, 0x00, 7) := by
  decide

/-- V1.21. -/
theorem test_lda_imm_operand_fetch_wraps : see (fun t => (t.a, t.pc, t.p, t.cyc)) { put 0xFFFF [0xA9, 0x01] State.reset with pc := 0xFFFF } =
    some (0x01, 0x0001, 0x00, 2) := by
  decide

/-- V1.22. -/
theorem test_jmp_ind_page_wrap : see (fun t => (t.pc, t.p, t.cyc)) (put 0x02FF [0x34, 0x56] (load [0x6C, 0xFF, 0x02])) =
    some (0x6C34, 0x00, 5) := by
  decide

/-- V1.23. -/
theorem test_jmp_ind_page_carry : see (fun t => (t.pc, t.p, t.cyc)) { put 0x02FF [0x34, 0x56] (load [0x6C, 0xFF, 0x02]) with cfg := ⟨.wrap, .carry⟩ } =
    some (0x5634, 0x00, 5) := by
  decide

/-! ### V2 add, subtract, compare -/

/-- V2.3. -/
theorem test_adc_imm_carry_in_overflows : see (fun t => (t.a, t.p, t.cyc)) { load [0x69, 0x00] with a := 0x7F, p := 0x01 } =
    some (0x80, 0xC0, 2) := by
  decide

/-- V2.15. -/
theorem test_adc_imm_decimal_faults : faultOf (step { load [0x69, 0x01] with p := 0x08 }) = some .decimalMode := by decide

/-- V2.7. -/
theorem test_adc_abs_overwrites_flags : see (fun t => (t.a, t.p, t.cyc)) { put 0x1234 [0x01] (load [0x6D, 0x34, 0x12]) with a := 0x01, p := 0xC3 } =
    some (0x03, 0x00, 4) := by
  decide

/-- V2.10. -/
theorem test_sbc_imm_overflow : see (fun t => (t.a, t.p, t.cyc)) { load [0xE9, 0x01] with a := 0x80, p := 0x01 } =
    some (0x7F, 0x41, 2) := by
  decide

/-- V2.12. -/
theorem test_sbc_imm_borrow_in : see (fun t => (t.a, t.p, t.cyc)) { load [0xE9, 0x03] with a := 0x05 } =
    some (0x01, 0x01, 2) := by
  decide

/-- V2.14. -/
theorem test_sbc_indy : see (fun t => (t.a, t.p, t.cyc)) { put 0x3002 [0x01] (put 0x0010 [0x00, 0x30] (load [0xF1, 0x10])) with a := 0x10, y := 0x02, p := 0x01 } =
    some (0x0F, 0x01, 5) := by
  decide

/-- V2.16. -/
theorem test_sbc_zp_decimal_faults : faultOf (step { load [0xE5, 0x10] with p := 0x09 }) = some .decimalMode := by decide

/-- V2.21. -/
theorem test_cmp_imm_is_unsigned : see (fun t => (t.p, t.cyc)) { load [0xC9, 0x00] with a := 0x80 } =
    some (0x81, 2) := by
  decide

/-- V2.22. -/
theorem test_cmp_imm_decimal_runs : see (fun t => (t.p, t.cyc)) { load [0xC9, 0x01] with a := 0x01, p := 0x48 } =
    some (0x4B, 2) := by
  decide

/-- V2.23. -/
theorem test_cpx_zp : see (fun t => (t.p, t.cyc)) { put 0x0010 [0x20] (load [0xE4, 0x10]) with x := 0x10 } =
    some (0x80, 3) := by
  decide

/-- V2.24. -/
theorem test_cpy_abs : see (fun t => (t.p, t.cyc)) { put 0x1234 [0x05] (load [0xCC, 0x34, 0x12]) with y := 0x06 } =
    some (0x01, 4) := by
  decide

/-! ### V3 logic -/

/-- V3.2. -/
theorem test_and_imm_keeps_c_and_v : see (fun t => (t.a, t.p, t.cyc)) { load [0x29, 0xF0] with a := 0xFF, p := 0x41 } =
    some (0xF0, 0xC1, 2) := by
  decide

/-- V3.3. -/
theorem test_ora_imm : see (fun t => (t.a, t.p, t.cyc)) { load [0x09, 0x01] with a := 0x80 } =
    some (0x81, 0x80, 2) := by
  decide

/-- V3.6. -/
theorem test_eor_zpx : see (fun t => (t.a, t.p, t.cyc)) { put 0x0011 [0xF0] (load [0x55, 0x10]) with a := 0x0F, x := 0x01 } =
    some (0xFF, 0x80, 4) := by
  decide

/-- V3.7. -/
theorem test_bit_zp_takes_v_n_from_memory : see (fun t => (t.p, t.cyc)) { put 0x0010 [0xC0] (load [0x24, 0x10]) with a := 0x01 } =
    some (0xC2, 3) := by
  decide

/-- V3.8. -/
theorem test_bit_zp_clears_v_n : see (fun t => (t.p, t.cyc)) { put 0x0010 [0x3F] (load [0x24, 0x10]) with a := 0xFF, p := 0xC2 } =
    some (0x00, 3) := by
  decide

/-- V3.9. -/
theorem test_bit_abs : see (fun t => (t.p, t.cyc)) { put 0x1234 [0x40] (load [0x2C, 0x34, 0x12]) with a := 0x40 } =
    some (0x40, 4) := by
  decide

/-! ### V4 loads, stores, transfers, increments -/

/-- V4.1. -/
theorem test_ldx_imm_zero : see (fun t => (t.x, t.p, t.cyc)) { load [0xA2, 0x00] with x := 0x55, p := 0x80 } =
    some (0x00, 0x02, 2) := by
  decide

/-- V4.2. -/
theorem test_ldy_absx : see (fun t => (t.y, t.p, t.cyc)) { put 0x12FF [0x80] (load [0xBC, 0x00, 0x12]) with x := 0xFF } =
    some (0x80, 0x80, 4) := by
  decide

/-- V4.3. -/
theorem test_ldx_absy_cross : see (fun t => (t.x, t.p, t.cyc)) { put 0x1300 [0x7F] (load [0xBE, 0xFF, 0x12]) with y := 0x01 } =
    some (0x7F, 0x00, 5) := by
  decide

/-- V4.4. -/
theorem test_sta_zp_no_flags : see (fun t => (t.byteAt 0x0010, t.p, t.cyc)) { load [0x85, 0x10] with p := 0x80 } =
    some (0x00, 0x80, 3) := by
  decide

/-- V4.5. -/
theorem test_stx_zpy : see (fun t => (t.byteAt 0x0012, t.p, t.cyc)) { load [0x96, 0x10] with x := 0x77, y := 0x02 } =
    some (0x77, 0x00, 4) := by
  decide

/-- V4.6. -/
theorem test_sty_abs : see (fun t => (t.byteAt 0x1234, t.p, t.cyc)) { load [0x8C, 0x34, 0x12] with y := 0x88 } =
    some (0x88, 0x00, 4) := by
  decide

/-- V4.7. -/
theorem test_tax : see (fun t => (t.x, t.p, t.cyc)) { load [0xAA] with a := 0x80 } =
    some (0x80, 0x80, 2) := by
  decide

/-- V4.8. -/
theorem test_tay : see (fun t => (t.y, t.p, t.cyc)) { load [0xA8] with y := 0x01 } =
    some (0x00, 0x02, 2) := by
  decide

/-- V4.9. -/
theorem test_txa : see (fun t => (t.a, t.p, t.cyc)) { load [0x8A] with a := 0xFF, x := 0x7F } =
    some (0x7F, 0x00, 2) := by
  decide

/-- V4.10. -/
theorem test_tya : see (fun t => (t.a, t.p, t.cyc)) { load [0x98] with y := 0xFF } =
    some (0xFF, 0x80, 2) := by
  decide

/-- V4.11. -/
theorem test_inc_zp_wraps : see (fun t => (t.byteAt 0x0010, t.p, t.cyc)) (put 0x0010 [0xFF] (load [0xE6, 0x10])) =
    some (0x00, 0x02, 5) := by
  decide

/-- V4.12. -/
theorem test_inc_abs : see (fun t => (t.byteAt 0x1234, t.p, t.cyc)) (put 0x1234 [0x7F] (load [0xEE, 0x34, 0x12])) =
    some (0x80, 0x80, 6) := by
  decide

/-- V4.13. -/
theorem test_dec_zp_wraps_keeps_c : see (fun t => (t.byteAt 0x0010, t.p, t.cyc)) { load [0xC6, 0x10] with p := 0x01 } =
    some (0xFF, 0x81, 5) := by
  decide

/-- V4.14. -/
theorem test_dec_zpx : see (fun t => (t.byteAt 0x0011, t.p, t.cyc)) { put 0x0011 [0x01] (load [0xD6, 0x10]) with x := 0x01 } =
    some (0x00, 0x02, 6) := by
  decide

/-- V4.15. -/
theorem test_inx_wraps : see (fun t => (t.x, t.p, t.cyc)) { load [0xE8] with x := 0xFF, p := 0x01 } =
    some (0x00, 0x03, 2) := by
  decide

/-- V4.16. -/
theorem test_iny : see (fun t => (t.y, t.p, t.cyc)) { load [0xC8] with y := 0x7F } =
    some (0x80, 0x80, 2) := by
  decide

/-- V4.17. -/
theorem test_dex_wraps : see (fun t => (t.x, t.p, t.cyc)) (load [0xCA]) =
    some (0xFF, 0x80, 2) := by
  decide

/-- V4.18. -/
theorem test_dey : see (fun t => (t.y, t.p, t.cyc)) { load [0x88] with y := 0x01 } =
    some (0x00, 0x02, 2) := by
  decide

/-! ### V5 shifts and rotates -/

/-- V5.1. -/
theorem test_asl_acc : see (fun t => (t.a, t.p, t.cyc)) { load [0x0A] with a := 0x81 } =
    some (0x02, 0x01, 2) := by
  decide

/-- V5.2. -/
theorem test_asl_zp : see (fun t => (t.byteAt 0x0010, t.p, t.cyc)) (put 0x0010 [0x80] (load [0x06, 0x10])) =
    some (0x00, 0x03, 5) := by
  decide

/-- V5.4. -/
theorem test_lsr_acc : see (fun t => (t.a, t.p, t.cyc)) { load [0x4A] with a := 0x01, p := 0x80 } =
    some (0x00, 0x03, 2) := by
  decide

/-- V5.5. -/
theorem test_lsr_abs : see (fun t => (t.byteAt 0x1234, t.p, t.cyc)) (put 0x1234 [0xFE] (load [0x4E, 0x34, 0x12])) =
    some (0x7F, 0x00, 6) := by
  decide

/-- V5.6. -/
theorem test_rol_acc_carry_in : see (fun t => (t.a, t.p, t.cyc)) { load [0x2A] with a := 0x40, p := 0x01 } =
    some (0x81, 0x80, 2) := by
  decide

/-- V5.8. -/
theorem test_rol_absx : see (fun t => (t.byteAt 0x1201, t.p, t.cyc)) { put 0x1201 [0x00] (load [0x3E, 0x00, 0x12]) with x := 0x01, p := 0x01 } =
    some (0x01, 0x00, 7) := by
  decide

/-- V5.9. -/
theorem test_ror_acc_carry_in : see (fun t => (t.a, t.p, t.cyc)) { load [0x6A] with a := 0x01, p := 0x01 } =
    some (0x80, 0x81, 2) := by
  decide

/-- V5.11. -/
theorem test_ror_zpx : see (fun t => (t.byteAt 0x0011, t.p, t.cyc)) { put 0x0011 [0x01] (load [0x76, 0x10]) with x := 0x01 } =
    some (0x00, 0x03, 6) := by
  decide

/-! ### V6 branches -/

/-- V6.1. -/
theorem test_bpl_taken : see (fun t => (t.pc, t.p, t.cyc)) (load [0x10, 0x05]) =
    some (0x0207, 0x00, 3) := by
  decide

/-- V6.2. -/
theorem test_bpl_not_taken : see (fun t => (t.p, t.cyc)) { load [0x10, 0x05] with p := 0x80 } =
    some (0x80, 2) := by
  decide

/-- V6.3. -/
theorem test_bmi_cross_back : see (fun t => (t.pc, t.p, t.cyc)) { load [0x30, 0xFC] with p := 0x80 } =
    some (0x01FE, 0x80, 4) := by
  decide

/-- V6.4. -/
theorem test_bvc_taken : see (fun t => (t.pc, t.p, t.cyc)) (load [0x50, 0x10]) =
    some (0x0212, 0x00, 3) := by
  decide

/-- V6.5. -/
theorem test_bvs_not_taken : see (fun t => (t.p, t.cyc)) (load [0x70, 0x10]) =
    some (0x00, 2) := by
  decide

/-- V6.7. -/
theorem test_bcc_cross : see (fun t => (t.pc, t.p, t.cyc)) { put 0x02F0 [0x90, 0x20] State.reset with pc := 0x02F0 } =
    some (0x0312, 0x00, 4) := by
  decide

/-- V6.8. -/
theorem test_bcs_taken : see (fun t => (t.pc, t.p, t.cyc)) { load [0xB0, 0x7F] with p := 0x01 } =
    some (0x0281, 0x01, 3) := by
  decide

/-- V6.12. -/
theorem test_bne_minus_128 : see (fun t => (t.pc, t.p, t.cyc)) (load [0xD0, 0x80]) =
    some (0x0182, 0x00, 4) := by
  decide

/-- V6.13. -/
theorem test_bne_wraps_through_65535 : see (fun t => (t.pc, t.p, t.cyc)) { put 0xFFF0 [0xD0, 0x20] State.reset with pc := 0xFFF0 } =
    some (0x0012, 0x00, 4) := by
  decide

/-- S4a. -/
theorem test_beq_cross : see (fun t => (t.pc, t.p, t.cyc)) { put 0xF07F [0xF0, 0x7F] State.reset with p := 0x02, pc := 0xF07F } =
    some (0xF100, 0x02, 4) := by
  decide

/-- V6.15. -/
theorem test_beq_compares_the_next_page : see (fun t => (t.pc, t.p, t.cyc)) { put 0x02FE [0xF0, 0x02] State.reset with p := 0x02, pc := 0x02FE } =
    some (0x0302, 0x02, 3) := by
  decide

/-! ### V7 stack, jumps, subroutines, interrupts -/

/-- V7.2. -/
theorem test_pha_wraps : see (fun t => (t.sp, t.byteAt 0x0100, t.p, t.cyc)) { load [0x48] with a := 0x42, sp := 0x00 } =
    some (0xFF, 0x42, 0x00, 3) := by
  decide

/-- S6b. -/
theorem test_php_forces_bits_4_and_5 : see (fun t => (t.sp, t.byteAt 0x01FF, t.p, t.cyc)) { load [0x08] with p := 0xC3 } =
    some (0xFE, 0xF3, 0xC3, 3) := by
  decide

/-- V7.4. -/
theorem test_pla_wraps : see (fun t => (t.a, t.sp, t.p, t.cyc)) (put 0x0100 [0x80] (load [0x68])) =
    some (0x80, 0x00, 0x80, 4) := by
  decide

/-- S6d. -/
theorem test_plp_keeps_bits_4_and_5 : see (fun t => (t.sp, t.p, t.cyc)) { put 0x01FF [0xFF] (load [0x28]) with sp := 0xFE } =
    some (0xFF, 0xCF, 4) := by
  decide

/-- S6e. -/
theorem test_plp_keeps_a_set_b : see (fun t => (t.sp, t.p, t.cyc)) { put 0x01FF [0x00] (load [0x28]) with sp := 0xFE, p := 0x10 } =
    some (0xFF, 0x10, 4) := by
  decide

/-- V7.5. -/
theorem test_tsx : see (fun t => (t.x, t.p, t.cyc)) (load [0xBA]) =
    some (0xFF, 0x80, 2) := by
  decide

/-- V7.6. -/
theorem test_txs_no_flags : see (fun t => (t.sp, t.p, t.cyc)) (load [0x9A]) =
    some (0x00, 0x00, 2) := by
  decide

/-- V7.7. -/
theorem test_jmp_abs : see (fun t => (t.pc, t.p, t.cyc)) (load [0x4C, 0x00, 0x80]) =
    some (0x8000, 0x00, 3) := by
  decide

/-- V7.9. -/
theorem test_jsr_pushes_its_last_byte : see (fun t => (t.sp, t.pc, [0x01FF, 0x01FE].map t.byteAt, t.p, t.cyc)) { put 0x02FE [0x20, 0x34, 0x12] State.reset with pc := 0x02FE } =
    some (0xFD, 0x1234, [0x03, 0x00], 0x00, 6) := by
  decide

/-- V7.10. -/
theorem test_rts_wraps : see (fun t => (t.sp, t.pc, t.p, t.cyc)) { put 0x01FE [0xFF, 0xFF] (load [0x60]) with sp := 0xFD } =
    some (0xFF, 0x0000, 0x00, 6) := by
  decide

/-- V7.12. -/
theorem test_brk : see (fun t => (t.sp, t.pc, [0x01FF, 0x01FE, 0x01FD].map t.byteAt, t.p, t.cyc)) { put 0xFFFE [0x00, 0x90] (load [0x00]) with p := 0xCB } =
    some (0xFC, 0x9000, [0x02, 0x02, 0xFB], 0xDF, 7) := by
  decide

/-- V7.16. -/
theorem test_rti_no_plus_one : see (fun t => (t.sp, t.pc, t.p, t.cyc)) { put 0x01FD [0xFF, 0x34, 0x12] (load [0x40]) with sp := 0xFC } =
    some (0xFF, 0x1234, 0xCF, 6) := by
  decide

/-- V7.17. -/
theorem test_rti_clears_b : see (fun t => (t.sp, t.pc, t.p, t.cyc)) { put 0x01FD [0x00, 0x34, 0x12] (load [0x40]) with sp := 0xFC, p := 0x10 } =
    some (0xFF, 0x1234, 0x00, 6) := by
  decide

/-! ### V8 flag instructions and NOP -/

/-- V8.1. -/
theorem test_clc : see (fun t => (t.p, t.cyc)) { load [0x18] with p := 0xCF } =
    some (0xCE, 2) := by
  decide

/-- V8.2. -/
theorem test_sec : see (fun t => (t.p, t.cyc)) (load [0x38]) =
    some (0x01, 2) := by
  decide

/-- V8.3. -/
theorem test_cli : see (fun t => (t.p, t.cyc)) { load [0x58] with p := 0xCF } =
    some (0xCB, 2) := by
  decide

/-- V8.4. -/
theorem test_sei : see (fun t => (t.p, t.cyc)) (load [0x78]) =
    some (0x04, 2) := by
  decide

/-- V8.5. -/
theorem test_clv : see (fun t => (t.p, t.cyc)) { load [0xB8] with p := 0xCF } =
    some (0x8F, 2) := by
  decide

/-- V8.6. -/
theorem test_cld : see (fun t => (t.p, t.cyc)) { load [0xD8] with p := 0xCF } =
    some (0xC7, 2) := by
  decide

/-- V8.7. -/
theorem test_sed : see (fun t => (t.p, t.cyc)) (load [0xF8]) =
    some (0x08, 2) := by
  decide

/-- V8.8. -/
theorem test_nop : see (fun t => (t.p, t.cyc)) { load [0xEA] with a := 0x12, p := 0xCF } =
    some (0xCF, 2) := by
  decide

/-! ### V9 and V10 The loop, unknown opcodes and accesses -/

/-- V9.7. -/
theorem test_unknown_opcode_halts : refusalOf (step (load [0xFF])) = some (.unknownOpcode 0xFF) ∧
    (stateAfterHalt (load [0xFF])).pc = 0x0201 ∧ (stateAfterHalt (load [0xFF])).cyc = 1 := by
  decide

/-- V9.1 and V9.2. -/
theorem test_execute_budget : (execute 0 (load [0xA9, 0x84])).cycles = some 0 ∧
    (execute 1 (load [0xA9, 0x84])).cycles = some 2 := by
  decide

/-- V9.6. -/
theorem test_execute_overruns_by_six : (execute 1 (load [0xFE, 0x00, 0x12])).cycles = some 7 := by decide

/-- V10.1. -/
theorem test_accesses_jsr : stepAccesses (load [0x20, 0x00, 0x80]) =
    [.read 0x0200 0x20, .read 0x0201 0x00, .read 0x0202 0x80, .write 0x01FF 0x02, .write 0x01FE 0x02] := by
  decide

/-- V10.3. -/
theorem test_accesses_brk : stepAccesses { put 0xFFFE [0x00, 0x90] (load [0x00]) with p := 0x01 } =
    [.read 0x0200 0x00, .write 0x01FF 0x02, .write 0x01FE 0x02, .write 0x01FD 0x31, .read 0xFFFE 0x00,
     .read 0xFFFF 0x90] := by
  decide

/-- V10.5. -/
theorem test_accesses_inc : stepAccesses { put 0x1300 [0x41] (load [0xFE, 0xFF, 0x12]) with x := 0x01 } =
    [.read 0x0200 0xFE, .read 0x0201 0xFF, .read 0x0202 0x12, .read 0x1300 0x41, .write 0x1300 0x42] := by
  decide

/-- V10.7. -/
theorem test_accesses_lda_indx :
    stepAccesses { put 0x3000 [0x77] (put 0x0024 [0x00, 0x30] (load [0xA1, 0x20])) with x := 0x04 } =
      [.read 0x0200 0xA1, .read 0x0201 0x20, .read 0x0024 0x00, .read 0x0025 0x30, .read 0x3000 0x77] := by
  decide

/-- V10.11, and V2.15 and V2.16: a halt and a decimal-mode fault read the opcode byte and nothing else. -/
theorem test_accesses_of_stops : stepAccesses (load [0x02]) = [.read 0x0200 0x02] ∧
    stepAccesses { load [0x69, 0x01] with p := 0x08 } = [.read 0x0200 0x69] ∧
    stepAccesses { load [0xE5, 0x10] with p := 0x09 } = [.read 0x0200 0xE5] := by
  decide

/-! ### Reset, host and memory -/

/-- Rule R280's table. -/
theorem test_reset : (State.reset.a, State.reset.sp, State.reset.p, State.reset.cyc) = (0x00, 0xFF, 0x00, 0) := by decide

/-- Writing the byte that an unlisted address reads as removes the pair. -/
theorem test_memory_canonical : ((Memory.write [] 0x1234 0x55).write 0x1234 0x00) = [] ∧
    (Memory.write (Memory.write [] 0x0002 0x01) 0x0001 0x01) = [(0x0001, 0x01), (0x0002, 0x01)] := by
  decide

/-- A pair that repeats what an unlisted address reads as, one out of order, and one outside the address space. -/
theorem test_memory_ill_formed : Memory.wf [(0x0001, 0x00)] = false ∧ Memory.wf [(2, 0x01), (1, 0x01)] = false ∧
    Memory.wf [(65536, 0x01)] = false := by
  decide

/-- S4: the header 0x7F 0xF0 is the load address 0xF07F. -/
theorem test_load_program : (loadProgram [0x7F, 0xF0, 0xF0, 0x7F] State.reset).1 = 0xF07F ∧
    (loadProgram [0x7F, 0xF0, 0xF0, 0x7F] State.reset).2.byteAt 0xF080 = 0x7F := by
  decide

/-! ### Witnesses: for each statement with hypotheses, values that meet them together -/

/-- An LDA that wraps its fetch through 0xFFFF (V1.21). -/
def ldaAtTop : State := { put 0xFFFF [0xA9, 0x01] State.reset with pc := 0xFFFF }

/-- ADC with D set (V2.15). -/
def adcDecimal : State := { load [0x69, 0x01] with p := 0x08 }

/-- An indexed read that crosses a page (V1.5). -/
def ldaCross : State := { put 0x1300 [0x02] (load [0xBD, 0xFE, 0x12]) with x := 0x02 }

theorem witness_DecodeOfEncodeIsTheInstruction : Instr.wf (.jsr 0xFFFF) = true ∧ Instr.wf (.bne 0x80) = true := by decide

theorem witness_EncodeOfDecodeGivesTheBytesBack : decode [0xAD, 0x34, 0x92, 0xE8] = .instr (.ldaAbs 0x9234) [0xE8] := by
  decide

theorem witness_LengthIsAFunctionOfTheOpcodeByte : (0xAD : Byte) ∉ Forms.unknownOpcodes ∧
    3 ≤ ([0x34, 0x92] : List Byte).length + 1 ∧ (0x00 : Byte) ∉ Forms.unknownOpcodes ∧ 1 ≤ ([] : List Byte).length + 1 := by
  decide

theorem witness_StepRunsTheDecodedInstruction : Instr.wf (.ldaImm 0x01) = true ∧
    decode (bytesFrom ldaAtTop 3 ldaAtTop.pc) = .instr (.ldaImm 0x01) [0x00] := by
  decide

theorem witness_StepOnAnUnknownOpcodeHalts : (load [0x02]).byteAt (load [0x02]).pc ∈ Forms.unknownOpcodes ∧
    (load [0xFF]).byteAt (load [0xFF]).pc ∈ Forms.unknownOpcodes := by
  decide

theorem witness_EveryStepHasOneOfThreeOutcomes :
    (load [0x02]).byteAt (load [0x02]).pc ∈ Forms.unknownOpcodes ∧
    (decode (bytesFrom adcDecimal 3 adcDecimal.pc) = .instr (.adcImm 0x01) [0x00] ∧
      isDecimalSensitive (.adcImm 0x01) = true ∧ adcDecimal.flag .D = true) ∧
    (decode (bytesFrom ldaAtTop 3 ldaAtTop.pc) = .instr (.ldaImm 0x01) [0x00] ∧
      ¬ (isDecimalSensitive (.ldaImm 0x01) = true ∧ ldaAtTop.flag .D = true)) := by
  decide

theorem witness_OnlyAdcAndSbcWithDSetFault :
    (isDecimalSensitive (.sbcIndy 0xFF) = true ∧ adcDecimal.flag .D = true) ∧
    ¬ (isDecimalSensitive (.sbcIndy 0xFF) = true ∧ State.reset.flag .D = true) ∧
    ¬ (isDecimalSensitive (.cmpImm 0x01) = true ∧ adcDecimal.flag .D = true) := by
  decide

theorem witness_StepKeepsTheInvariant : ldaAtTop.Inv ∧ ∃ t, step ldaAtTop = .next t := ⟨by decide, _, rfl⟩

theorem witness_ResetHasTheInvariant : Memory.wf [(0, 0x01), (65535, 0xFF)] = true := by decide

theorem witness_ReachableStatesHaveBit5Clear : Reachable State.reset ∧ ∃ t, step State.reset = .next t ∧ Reachable t :=
  ⟨.reset _ _ _ (by decide), _, rfl, .step (.reset Config.specDefault Config.resetPc [] (by decide)) rfl⟩

theorem witness_EveryStepCostsWhatTheTableSays :
    decode (bytesFrom ldaCross 3 ldaCross.pc) = .instr (.ldaAbsx 0x12FE) [] ∧ ∃ t, step ldaCross = .next t :=
  ⟨by decide, _, rfl⟩

theorem witness_CostIsAccessesPlusTicks : decode (bytesFrom ldaCross 3 ldaCross.pc) = .instr (.ldaAbsx 0x12FE) [] ∧
    ¬ (isDecimalSensitive (.ldaAbsx 0x12FE) = true ∧ ldaCross.flag .D = true) ∧
    decode (bytesFrom (load [0x69, 0x01]) 3 0x0200) = .instr (.adcImm 0x01) [0x00] ∧
    ¬ (isDecimalSensitive (.adcImm 0x01) = true ∧ (load [0x69, 0x01]).flag .D = true) := by
  decide

theorem witness_StoppingStepsReadOnlyTheOpcodeByte : (∀ t, step (load [0xFF]) ≠ .next t) ∧ ∀ t, step adcDecimal ≠ .next t :=
  ⟨nofun, nofun⟩

theorem witness_AccessesInOrderExplainTheStep : ldaCross.mem.wf = true ∧ ∃ t, step ldaCross = .next t := ⟨by decide, _, rfl⟩

theorem witness_ExecuteReturnsWithinSixOfItsBudget :
    (∃ t, execute 1 (load [0xFE, 0x00, 0x12]) = .budgetExhausted t ∧ t.cyc = 7) ∧
    ∃ t, execute 1 (load [0xFF]) = .halted 0xFF t ∧ t.cyc = 1 :=
  ⟨⟨_, rfl, rfl⟩, _, rfl, rfl⟩

theorem witness_ExecuteInSlicesIsOneLongerCall : ∃ t, execute 1 (load [0xA9, 0x84]) = .budgetExhausted t ∧ t.cyc = 2 :=
  ⟨_, rfl, rfl⟩

theorem witness_ABudgetOfOneRunsOneInstruction : (∃ t, step { load [0xA9, 0x84] with cyc := 0 } = .next t) ∧
    step { adcDecimal with cyc := 0 } = .fault .decimalMode ∧
    (load [0xFF]).byteAt (load [0xFF]).pc ∈ Forms.unknownOpcodes :=
  ⟨⟨_, rfl⟩, rfl, by decide⟩

theorem witness_HostWritesOneFieldOnly : Flag.N ≠ Flag.C ∧ HostReg.SP ≠ HostReg.A ∧ State.reset.mem.wf = true ∧
    (0xFFFF : Addr) ≠ 0x0000 := by
  decide

theorem witness_LoadProgramCopiesTheImage : State.reset.mem.wf = true ∧ ([0xF0, 0x7F] : List Byte).length ≤ 65536 ∧
    1 < ([0xF0, 0x7F] : List Byte).length ∧
    ∀ k : Nat, k < ([0xF0, 0x7F] : List Byte).length → (0x0001 : Addr) ≠ word16 0xFF 0xFF + BitVec.ofNat 16 k := by
  decide

theorem witness_MemoryReadsTheLastWrite : Memory.wf [(0, 0x01)] = true ∧ (0xFFFF : Addr) ≠ 0x0000 ∧
    ∀ addr : Addr, Memory.read [(0, 0x01)] addr.toNat = Memory.read [(0, 0x01)] addr.toNat :=
  ⟨by decide, by decide, fun _ => rfl⟩

theorem witness_FlagsAreTheNamedBits : 0 < 8 ∧ 7 < 8 := by decide

theorem witness_SetZNFollowsTheValue : Flag.C ≠ Flag.Z ∧ Flag.C ≠ Flag.N := by decide

theorem witness_SbcUndoesAdc : State.reset.flag .D = false := by decide

theorem witness_LoadsGiveTheOperandAndItsFlags :
    ⟨0xB1, 5, .ldaIndy 0xFF, .mem (.indy 0xFF)⟩ ∈ Forms.lda 0xFF 0xFFFF ∧
    ⟨0xB6, 4, .ldxZpy 0xFF, .mem (.zpy 0xFF)⟩ ∈ Forms.ldx 0xFF 0xFFFF ∧
    ⟨0xBC, 4, .ldyAbsx 0xFFFF, .mem (.absx 0xFFFF)⟩ ∈ Forms.ldy 0xFF 0xFFFF := by
  simp [Forms.lda, Forms.ldx, Forms.ldy]

theorem witness_StoresWriteTheRegister :
    ⟨0x91, 6, .staIndy 0xFF, .indy 0xFF⟩ ∈ Forms.sta 0xFF 0xFFFF ∧ ⟨0x96, 4, .stxZpy 0xFF, .zpy 0xFF⟩ ∈ Forms.stx 0xFF 0xFFFF ∧
    ⟨0x8C, 4, .styAbs 0xFFFF, .abs 0xFFFF⟩ ∈ Forms.sty 0xFF 0xFFFF := by
  simp [Forms.sta, Forms.stx, Forms.sty]

theorem witness_MemoryIncrementAndDecrementWrap :
    ⟨0xFE, 7, .incAbsx 0xFFFF, .absx 0xFFFF⟩ ∈ Forms.inc 0xFF 0xFFFF ∧
    ⟨0xC6, 5, .decZp 0xFF, .zp 0xFF⟩ ∈ Forms.dec 0xFF 0xFFFF := by
  simp [Forms.inc, Forms.dec]

theorem witness_AdcAddsOrFaultsInDecimalMode : ⟨0x61, 6, .adcIndx 0xFF, .mem (.indx 0xFF)⟩ ∈ Forms.adc 0xFF 0xFFFF ∧
    adcDecimal.flag .D = true ∧ State.reset.flag .D = false :=
  ⟨by simp [Forms.adc], by decide, by decide⟩

theorem witness_SbcSubtractsOrFaultsInDecimalMode : ⟨0xE9, 2, .sbcImm 0xFF, .imm 0xFF⟩ ∈ Forms.sbc 0xFF 0xFFFF ∧
    adcDecimal.flag .D = true ∧ State.reset.flag .D = false :=
  ⟨by simp [Forms.sbc], by decide, by decide⟩

theorem witness_CompareWritesCarryZeroNegative :
    ⟨0xD9, 4, .cmpAbsy 0xFFFF, .mem (.absy 0xFFFF)⟩ ∈ Forms.cmp 0xFF 0xFFFF ∧
    ⟨0xE0, 2, .cpxImm 0xFF, .imm 0xFF⟩ ∈ Forms.cpx 0xFF 0xFFFF ∧
    ⟨0xC4, 3, .cpyZp 0xFF, .mem (.zp 0xFF)⟩ ∈ Forms.cpy 0xFF 0xFFFF := by
  simp [Forms.cmp, Forms.cpx, Forms.cpy]

theorem witness_LogicOperatesOnA : ⟨0x29, 2, .andImm 0xFF, .imm 0xFF⟩ ∈ Forms.and 0xFF 0xFFFF ∧
    ⟨0x15, 4, .oraZpx 0xFF, .mem (.zpx 0xFF)⟩ ∈ Forms.ora 0xFF 0xFFFF ∧
    ⟨0x51, 5, .eorIndy 0xFF, .mem (.indy 0xFF)⟩ ∈ Forms.eor 0xFF 0xFFFF := by
  simp [Forms.and, Forms.ora, Forms.eor]

theorem witness_BitTestsTheOperand : ⟨0x2C, 4, .bitAbs 0xFFFF, .mem (.abs 0xFFFF)⟩ ∈ Forms.bit 0xFF 0xFFFF := by
  simp [Forms.bit]

theorem witness_ShiftsAndRotatesOnMemory : ⟨0x06, 5, .aslZp 0xFF, .zp 0xFF⟩ ∈ Forms.asl 0xFF 0xFFFF ∧
    ⟨0x56, 6, .lsrZpx 0xFF, .zpx 0xFF⟩ ∈ Forms.lsr 0xFF 0xFFFF ∧ ⟨0x2E, 6, .rolAbs 0xFFFF, .abs 0xFFFF⟩ ∈ Forms.rol 0xFF 0xFFFF ∧
    ⟨0x7E, 7, .rorAbsx 0xFFFF, .absx 0xFFFF⟩ ∈ Forms.ror 0xFF 0xFFFF := by
  simp [Forms.asl, Forms.lsr, Forms.rol, Forms.ror]

theorem witness_BranchesTestOneFlag : ⟨0xF0, .beq 0x80, .Z, true⟩ ∈ Forms.branches 0x80 ∧
    State.reset.flag .Z ≠ true ∧ { State.reset with p := 0x02 }.flag .Z = true :=
  ⟨by simp [Forms.branches], by decide, by decide⟩

theorem witness_PushAndPopAreInverse : State.reset.mem.wf = true ∧
    (0x0000 : Addr) ≠ 0x0100 ||| (0x00 : Byte).setWidth 16 ∧ (0x0000 : Addr) ≠ 0x0100 ||| ((0x00 : Byte) - 1).setWidth 16 := by
  decide

theorem witness_RtsPopsPCAndAddsOne : { State.reset with pc := 0x0000, sp := 0x00 }.mem.wf = true := by decide

/-- The handler's entry after a BRK, with the handler's own registers and flags changed. -/
theorem witness_RtiUndoesBrk : ∃ s t h : State, s.mem.wf = true ∧ exec .brk s = .next t ∧ h.sp = t.sp ∧
    unusedBit h.p = unusedBit t.p ∧ h.a ≠ t.a ∧ h.p ≠ t.p ∧
    ∀ k : Byte, k ∈ [1, 2, 3] → h.byteAt (stackAddr (t.sp + k)) = t.byteAt (stackAddr (t.sp + k)) := by
  refine ⟨{ State.reset with pc := 0x0201, sp := 0x01, p := 0xCB }, _,
    { enterInterrupt 0x0202 { State.reset with pc := 0x0201, sp := 0x01, p := 0xCB } with a := 0x55, p := 0x00 },
    by decide, rfl, rfl, by decide, by decide, by decide, fun k hk => ?_⟩
  fin_cases hk <;> rfl

theorem witness_FlagInstructionsWriteOneFlag : ⟨0xF8, .sed, .D, true⟩ ∈ Forms.flagSetters := by simp [Forms.flagSetters]

theorem witness_OnlyStoringFormsChangeMemory :
    (∃ t, exec (.ldaAbs 0xFFFF) State.reset = .next t) ∧ Mnemonic.LDA ∉ Forms.storing ∧
    (∃ t, exec .rolAcc State.reset = .next t) ∧ Instr.operand .rolAcc = .acc :=
  ⟨⟨_, rfl⟩, by decide, ⟨_, rfl⟩, rfl⟩

theorem witness_StoringFormsChangeOneByte : Instr.operand (.incZp 0xFF) = .mem (.zp 0xFF) ∧
    (Instr.mnemonic (.incZp 0xFF)) ∈ [Mnemonic.STA, .STX, .STY, .INC, .DEC, .ASL, .LSR, .ROL, .ROR] ∧
    (0x0100 : Addr) ≠ (resolve .store (.zp 0xFF) State.reset).1 ∧ Instr.operand (.staIndy 0xFF) = .mem (.indy 0xFF) ∧
    (Instr.mnemonic (.staIndy 0xFF)) ∈ [Mnemonic.STA, .STX, .STY] ∧ Flag.I ≠ .C ∧ Flag.I ≠ .Z ∧ Flag.I ≠ .N := by
  decide

theorem witness_PushingFormsChangeTheStackSlotsOnly :
    ((Instr.brk, 3) : Instr × Nat) ∈ [(Instr.pha, 1), (.php, 1), (.jsr 0xFFFF, 2), (.brk, 3)] ∧
    ∀ k : Nat, k < 3 → (0xFFFE : Addr) ≠ stackAddr (0x00 - BitVec.ofNat 8 k) :=
  ⟨by simp, by decide⟩

/-- One next state for each clause: `A`, `X`, `Y`, `SP` and `PC` differ after TXA, TAX, TAY, TXS and JMP, and `A` after ASL. -/
theorem witness_OnlyTheListedInstructionsWriteEachRegister :
    (∃ t, exec .txa { State.reset with x := 0x01 } = .next t ∧ t.a ≠ State.reset.a) ∧
    (∃ t, exec .tax { State.reset with a := 0x01 } = .next t ∧ t.x ≠ State.reset.x) ∧
    (∃ t, exec .tay { State.reset with a := 0x01 } = .next t ∧ t.y ≠ State.reset.y) ∧
    (∃ t, exec .txs State.reset = .next t ∧ t.sp ≠ State.reset.sp) ∧
    (∃ t, exec (.jmpAbs 0xFFFF) State.reset = .next t ∧ t.pc ≠ State.reset.pc) ∧
    (∃ t, exec .aslAcc { State.reset with a := 0x01 } = .next t ∧ t.a ≠ 0x01) :=
  ⟨⟨_, rfl, by decide⟩, ⟨_, rfl, by decide⟩, ⟨_, rfl, by decide⟩, ⟨_, rfl, by decide⟩, ⟨_, rfl, by decide⟩, _, rfl, by decide⟩

/-- One next state for each flag: SEC, TAX, SEI, SED, BRK, PLP and CLV on states where the flag changes. -/
theorem witness_OnlyTheListedInstructionsWriteEachFlag :
    (∃ t, exec .sec State.reset = .next t ∧ t.flag .C ≠ State.reset.flag .C) ∧
    (∃ t, exec .tax State.reset = .next t ∧ t.flag .Z ≠ State.reset.flag .Z) ∧
    (∃ t, exec .sei State.reset = .next t ∧ t.flag .I ≠ State.reset.flag .I) ∧
    (∃ t, exec .sed State.reset = .next t ∧ t.flag .D ≠ State.reset.flag .D) ∧
    (∃ t, exec .brk State.reset = .next t ∧ t.flag .B ≠ State.reset.flag .B) ∧
    (∃ t, exec .clv { State.reset with p := 0x40 } = .next t ∧ t.flag .V ≠ true) ∧
    (∃ t, exec .tax { State.reset with a := 0x80 } = .next t ∧ t.flag .N ≠ State.reset.flag .N) :=
  ⟨⟨_, rfl, by decide⟩, ⟨_, rfl, by decide⟩, ⟨_, rfl, by decide⟩, ⟨_, rfl, by decide⟩, ⟨_, rfl, by decide⟩,
    ⟨_, rfl, by decide⟩, _, rfl, by decide⟩

end Sys2Proof.Tests
end

/-! ## How a step and a call of execute end (00_scope.md rules R9, R10) -/

section

namespace Sys2Proof.Machine

/-! ### The fetch and the decoder agree -/

/-- The list of 30_encoding.md rule R84 is what the dispatch table leaves out, byte by byte from 0x00 to 0xFF. -/
theorem unknownOpcodes_eq_filter :
    Forms.unknownOpcodes = ((List.range 256).map (BitVec.ofNat 8)).filter fun op => (dispatchRow op).isNone := by
  decide

theorem dispatchRow_eq_none_iff (op : Byte) : dispatchRow op = none ↔ op ∈ Forms.unknownOpcodes := by
  have hmem : op ∈ (List.range 256).map (BitVec.ofNat 8) :=
    List.mem_map.mpr ⟨op.toNat, List.mem_range.mpr op.isLt, by simp⟩
  rw [unknownOpcodes_eq_filter, List.mem_filter, Option.isNone_iff_eq_none, and_iff_right hmem]

/-- Either no row holds the byte at `PC`, or the fetch finds the instruction that the bytes at `PC` decode to. -/
theorem fetchInstr_decode_cases (s : State) :
    (dispatchRow (s.byteAt s.pc) = none ∧ fetchInstr s = .unknown (s.byteAt s.pc)) ∨
    ∃ i rest, decode (bytesFrom s 3 s.pc) = .instr i rest ∧ fetchInstr s = .instr i (s.pastFetch i.length) := by
  cases h : dispatchRow (s.byteAt s.pc) with
  | none => exact .inl ⟨rfl, fetchInstr_none h⟩
  | some row =>
    have hs := dispatchRow_sound h
    cases row with
    | none1 i => exact .inr ⟨i, _, decode_none1 h _, by rw [fetchInstr_none1 h, hs.2.2]⟩
    | byte2 make => exact .inr ⟨_, _, decode_byte2 h _ _, by rw [fetchInstr_byte2 h, (hs _).2.2]⟩
    | word3 make => exact .inr ⟨_, _, decode_word3 h _ _ _, by rw [fetchInstr_word3 h, (hs _).2.2]⟩

/-- What a step does, in terms of the decoder: it halts on an unknown opcode byte, or runs the decoded instruction. -/
theorem step_decode_cases (s : State) :
    (s.byteAt s.pc ∈ Forms.unknownOpcodes ∧ step s = .refused (.unknownOpcode (s.byteAt s.pc))) ∨
    ∃ i rest, decode (bytesFrom s 3 s.pc) = .instr i rest ∧ step s = exec i (s.pastFetch i.length) := by
  rcases fetchInstr_decode_cases s with ⟨h, hf⟩ | ⟨i, rest, hd, hf⟩
  · exact .inl ⟨(dispatchRow_eq_none_iff _).mp h, by simp only [step, hf]⟩
  · exact .inr ⟨i, rest, hd, by simp only [step, hf]⟩

theorem step_of_unknownOpcode {s : State} (h : s.byteAt s.pc ∈ Forms.unknownOpcodes) :
    step s = .refused (.unknownOpcode (s.byteAt s.pc)) := by
  simp only [step, fetchInstr_none ((dispatchRow_eq_none_iff _).mpr h)]

theorem step_of_decode {s : State} {i : Instr} {rest : List Byte} (h : decode (bytesFrom s 3 s.pc) = .instr i rest) :
    step s = exec i (s.pastFetch i.length) := by
  rcases step_decode_cases s with ⟨hu, -⟩ | ⟨j, rest', hd, hs⟩
  · have hn := decode_none ((dispatchRow_eq_none_iff _).mpr hu) (bytesFrom s 2 (s.pc + 1))
    cases hn.symm.trans h
  · cases hd.symm.trans h
    exact hs

/-! ### The outcomes of an instruction -/

/-- ADC and SBC with D set fault (41_arith_logic.md rule R123). -/
theorem exec_of_decimal {i : Instr} {s : State} (hi : isDecimalSensitive i = true) (hd : s.flag .D = true) :
    exec i s = .fault .decimalMode := by
  have hs := exec_shape i
  rw [isDecimalSensitive] at hi
  generalize i.mnemonic = m, i.operand = o, exec i = e at hs hi ⊢
  cases hs with
  | adc src => exact adc_fault hd src
  | sbc src => exact sbc_fault hd src
  | _ => exact absurd hi (by decide)

/-- Every other instruction completes (41_arith_logic.md rule R123). -/
theorem exec_of_not_decimal {i : Instr} {s : State} (h : ¬ (isDecimalSensitive i = true ∧ s.flag .D = true)) :
    ∃ t, exec i s = .next t := by
  have hs := exec_shape i
  rw [isDecimalSensitive] at h
  generalize i.mnemonic = m, i.operand = o, exec i = e at hs h ⊢
  cases hs with
  | adc src => exact ⟨_, adc_next (Bool.eq_false_of_not_eq_true fun hd => h ⟨rfl, hd⟩) src⟩
  | sbc src => exact ⟨_, sbc_next (Bool.eq_false_of_not_eq_true fun hd => h ⟨rfl, hd⟩) src⟩
  | _ => exact ⟨_, rfl⟩

/-- Every instruction has its meaning. -/
theorem exec_ne_refused (i : Instr) (s : State) (r : Refusal) : exec i s ≠ .refused r := by
  intro h
  by_cases hd : isDecimalSensitive i = true ∧ s.flag .D = true
  · obtain ⟨hi, hD⟩ := hd
    cases (exec_of_decimal hi hD).symm.trans h
  · obtain ⟨t, ht⟩ := exec_of_not_decimal hd
    cases ht.symm.trans h

@[simp] theorem State.pastFetch_flag (n : Nat) (s : State) (f : Flag) : (s.pastFetch n).flag f = s.flag f := rfl

@[simp] theorem State.pastFetch_cyc (n : Nat) (s : State) : (s.pastFetch n).cyc = s.cyc + n := rfl

/-- Settles O8: the fetch finds what the decoder finds, and an instruction that runs faults exactly when it is an ADC or SBC
with D set. -/
theorem everyStepHasOneOfThreeOutcomes : Obligations.EveryStepHasOneOfThreeOutcomes := by
  intro s
  refine ⟨step_of_unknownOpcode, fun i rest h => ?_, ?_⟩
  · rw [step_of_decode h, ← State.pastFetch_flag i.length s .D]
    exact ⟨fun ⟨hi, hd⟩ => exec_of_decimal hi hd, exec_of_not_decimal⟩
  · rcases step_decode_cases s with ⟨hu, -⟩ | ⟨i, rest, hd, -⟩
    · exact .inl hu
    · exact .inr ⟨i, rest, hd⟩

/-! ### Every step that completes spends a cycle -/

theorem addInto_cyc_le (f : Byte → Byte) (src : Source) (s : State) : s.cyc ≤ (addInto f src s).cyc := by
  rw [addInto_eq]
  exact Nat.le_add_right _ _

/-- `CYC` never falls: each shared operation adds to it what it costs. -/
theorem exec_cyc_le {i : Instr} {s t : State} (h : exec i s = .next t) : s.cyc ≤ t.cyc := by
  have hs := exec_shape i
  have hn := not_decimal_of_next h
  rw [isDecimalSensitive] at hn
  generalize i.mnemonic = m, i.operand = o, exec i = e at hs hn h
  cases hs with
  | adc src =>
    cases (adc_next (Bool.eq_false_of_not_eq_true fun hd => hn ⟨rfl, hd⟩) src).symm.trans h
    exact addInto_cyc_le _ src s
  | sbc src =>
    cases (sbc_next (Bool.eq_false_of_not_eq_true fun hd => hn ⟨rfl, hd⟩) src).symm.trans h
    exact addInto_cyc_le _ src s
  | _ =>
    cases h
    simp [compare_eq, logic_eq, bitTest_eq, load_eq, store_eq, modify_eq, operateAcc_eq, putReg_eq, push8_eq, push16_eq,
      pla_eq, plp_eq, jmpIndirect_eq, rts_eq, enterInterrupt_eq, returnFromInterrupt_eq, branch_eq, Nat.add_assoc]

theorem length_pos_of_instr (i : Instr) : 0 < i.length := by
  rw [Instr.length]
  cases i.mode <;> decide

/-- The opcode fetch alone spends a cycle (46_dispatch_loop.md rule R238). -/
theorem cyc_lt_of_step_next {s t : State} (h : step s = .next t) : s.cyc < t.cyc := by
  rcases step_decode_cases s with ⟨-, hs⟩ | ⟨i, rest, -, hs⟩
  · cases hs.symm.trans h
  · have hle := exec_cyc_le (hs.symm.trans h)
    have hpos := length_pos_of_instr i
    rw [State.pastFetch_cyc] at hle
    omega

/-- A refusal of a step is the halt on an unknown opcode byte at `PC`. -/
theorem refusal_of_step_refused {s : State} {r : Refusal} (h : step s = .refused r) :
    r = .unknownOpcode (s.byteAt s.pc) ∧ s.byteAt s.pc ∈ Forms.unknownOpcodes := by
  rcases step_decode_cases s with ⟨hu, hs⟩ | ⟨i, rest, -, hs⟩
  · cases hs.symm.trans h
    exact ⟨rfl, hu⟩
  · exact absurd (hs.symm.trans h) (exec_ne_refused i _ r)

/-! ### The ends of an execute call -/

/-- The ends that 00_scope.md rule R10 names, each with what holds of it. -/
def RunEnd.Allowed (budget : Nat) : RunEnd → Prop
  | .budgetExhausted t => budget ≤ t.cyc
  | .halted op t => op ∈ Forms.unknownOpcodes ∧ t.byteAt (t.pc - 1) = op
  | .aborted f => f = .decimalMode
  | .refused _ => False

/-- The opcode byte that a halt reports lies before the `PC` it leaves. -/
theorem stateAfterHalt_byteAt_pred_pc (s : State) :
    (stateAfterHalt s).byteAt ((stateAfterHalt s).pc - 1) = s.byteAt s.pc := by
  have hpc : s.pc + 1 - 1 = s.pc := BitVec.add_sub_cancel _ _
  rw [stateAfterHalt, fetch8_eq]
  exact congrArg s.byteAt hpc

/-- The loop with as many instructions to go as cycles are left of the budget ends in an allowed way. -/
theorem runLoop_allowed {budget n : Nat} {s : State} (h : budget ≤ s.cyc + n) : (runLoop budget n s).Allowed budget := by
  induction n generalizing s with
  | zero => exact h
  | succ n ih =>
    rw [runLoop]
    split
    next hb => exact hb
    next =>
      cases hs : step s with
      | next t =>
        have hlt := cyc_lt_of_step_next hs
        exact ih (by omega)
      | fault f => cases f; rfl
      | refused r =>
        obtain ⟨rfl, hu⟩ := refusal_of_step_refused hs
        exact ⟨hu, stateAfterHalt_byteAt_pred_pc s⟩

theorem execute_allowed (budget : Nat) (s : State) : (execute budget s).Allowed budget :=
  runLoop_allowed (Nat.le_add_left budget 0)

/-- Settles O19, by induction on the instructions left: each one spends a cycle, so the loop runs out of budget first. -/
theorem executeEndsInOneOfThreeWays : Obligations.ExecuteEndsInOneOfThreeWays := by
  intro budget s
  have h := execute_allowed budget s
  cases he : execute budget s with
  | budgetExhausted t => rw [he] at h; exact .inl ⟨t, rfl, h⟩
  | halted op t => rw [he] at h; exact .inr (.inl ⟨op, t, rfl, h⟩)
  | aborted f => rw [he] at h; exact .inr (.inr (congrArg _ h))
  | refused r => rw [he] at h; exact h.elim

end Sys2Proof.Machine

end

/-! ## What an instruction writes, and the state it keeps (10_state.md) -/

section

namespace Sys2Proof.Machine

/-! ### Parts of the state and their writers -/

/-- A part of the state that 10_state.md says who may change: the registers, the flags, bit 5 of `P`; and the parameters. -/
inductive Part where
  | A | X | Y | SP | PC
  | flag (f : Flag)
  | bit5
  | cfg

/-- A part reads the same in two states. -/
def Part.Same (s t : State) : Part → Prop
  | .A => t.a = s.a
  | .X => t.x = s.x
  | .Y => t.y = s.y
  | .SP => t.sp = s.sp
  | .PC => t.pc = s.pc
  | .flag f => t.flag f = s.flag f
  | .bit5 => unusedBit t.p = unusedBit s.p
  | .cfg => t.cfg = s.cfg

/-- The mnemonics that may change a part (10_state.md rules R22 to R34; no instruction changes bit 5 or the parameters). -/
def Part.writers : Part → List Mnemonic
  | .A => Forms.writesA
  | .X => Forms.writesX
  | .Y => Forms.writesY
  | .SP => Forms.writesSP
  | .PC => Forms.writesPC
  | .flag f => Forms.writesFlag f
  | .bit5 | .cfg => []

/-- The part a register of 30_encoding.md rule R89 is. -/
def regPart : Reg → Part
  | .A => .A
  | .X => .X
  | .Y => .Y

theorem Part.Same.trans {p : Part} {s t u : State} (h : p.Same s t) (h' : p.Same t u) : p.Same s u := by
  cases p <;> exact Eq.trans h' h

/-- From `s` to `t` no part outside the list changes, and memory stays canonical. -/
structure State.Frame (parts : List Part) (s t : State) : Prop where
  same : ∀ p, p ∉ parts → p.Same s t
  wf : s.mem.wf = true → t.mem.wf = true

namespace State.Frame

theorem trans {ps qs : List Part} {s t u : State} (h : Frame ps s t) (h' : Frame qs t u) : Frame (ps ++ qs) s u where
  same p hp := by
    rw [List.mem_append, not_or] at hp
    obtain ⟨hps, hqs⟩ := hp
    exact (h.same p hps).trans (h'.same p hqs)
  wf hw := h'.wf (h.wf hw)

theorem of_same {s t : State} (h : ∀ p : Part, p.Same s t) (hw : s.mem.wf = true → t.mem.wf = true) : Frame [] s t :=
  ⟨fun p _ => h p, hw⟩

theorem of_same_of_ne {q : Part} {s t : State} (h : ∀ p : Part, p ≠ q → p.Same s t)
    (hw : s.mem.wf = true → t.mem.wf = true) : Frame [q] s t :=
  ⟨fun p hp => h p (List.ne_of_not_mem_cons hp), hw⟩

/-- The invariant needs bit 5 and memory alone. -/
theorem inv {ps : List Part} {s t : State} (h : Frame ps s t) (h5 : .bit5 ∉ ps) (hs : s.Inv) : t.Inv := by
  obtain ⟨hw, hb⟩ := hs
  have hsame : unusedBit t.p = unusedBit s.p := h.same .bit5 h5
  exact ⟨h.wf hw, hsame.trans hb⟩

/-! ### The named updates -/

theorem setCyc (n : Nat) (s : State) : Frame [] s { s with cyc := n } := of_same (fun p => by cases p <;> rfl) id

theorem tick (n : Nat) (s : State) : Frame [] s (s.tick n) := setCyc _ s

theorem write (addr : Addr) (v : Byte) (s : State) : Frame [] s (s.setMem (s.mem.write addr.toNat v)) :=
  of_same (fun p => by cases p <;> rfl) fun hw => Memory.wf_write_addr hw addr v

theorem setA (v : Byte) (s : State) : Frame [.A] s (s.setA v) := by
  refine of_same_of_ne (fun p hp => ?_) id
  cases p with
  | A => exact absurd rfl hp
  | _ => rfl

theorem setX (v : Byte) (s : State) : Frame [.X] s (s.setX v) := by
  refine of_same_of_ne (fun p hp => ?_) id
  cases p with
  | X => exact absurd rfl hp
  | _ => rfl

theorem setY (v : Byte) (s : State) : Frame [.Y] s (s.setY v) := by
  refine of_same_of_ne (fun p hp => ?_) id
  cases p with
  | Y => exact absurd rfl hp
  | _ => rfl

theorem setSp (v : Byte) (s : State) : Frame [.SP] s (s.setSp v) := by
  refine of_same_of_ne (fun p hp => ?_) id
  cases p with
  | SP => exact absurd rfl hp
  | _ => rfl

theorem setPc (v : Addr) (s : State) : Frame [.PC] s (s.setPc v) := by
  refine of_same_of_ne (fun p hp => ?_) id
  cases p with
  | PC => exact absurd rfl hp
  | _ => rfl

theorem setFlag (f : Flag) (b : Bool) (s : State) : Frame [.flag f] s (s.setFlag f b) := by
  refine of_same_of_ne (fun p hp => ?_) id
  cases p with
  | flag g => exact getFlag_setFlag_of_ne (fun h => hp (congrArg _ h)) b s.p
  | bit5 => exact setFlag_unusedBit f b s.p
  | _ => rfl

/-- A pull keeps B and bit 5 (44_stack_jump_interrupt.md rule R199). -/
theorem setP_pulledStatus (v : Byte) (s : State) :
    Frame [.flag .C, .flag .Z, .flag .I, .flag .D, .flag .V, .flag .N] s (s.setP (pulledStatus v s.p)) where
  same p hp := by
    cases p with
    | flag g =>
      cases g with
      | B => exact getFlag_pulledStatus .B v s.p
      | _ => simp at hp
    | bit5 => exact pulledStatus_unusedBit v s.p
    | _ => rfl
  wf := id

theorem setReg (r : Reg) (v : Byte) (s : State) : Frame [regPart r] s (s.setReg r v) := by
  cases r with
  | A => exact setA v s
  | X => exact setX v s
  | Y => exact setY v s

theorem setZN (v : Byte) (s : State) : Frame [.flag .Z, .flag .N] s (s.setZN v) :=
  (setFlag .Z _ s).trans (setFlag .N _ _)

/-! ### The shared operations -/

theorem addInto (f : Byte → Byte) (src : Source) (s : State) :
    Frame [.A, .flag .C, .flag .V, .flag .Z, .flag .N] s (addInto f src s) := by
  rw [addInto_eq]
  exact ((((setA _ s).trans (setFlag .C _ _)).trans (setFlag .V _ _)).trans (setZN _ _)).trans (setCyc _ _)

theorem compare (reg : Reg) (src : Source) (s : State) :
    Frame [.flag .C, .flag .Z, .flag .N] s (compare reg src s) := by
  rw [compare_eq]
  exact (((setFlag .C _ s).trans (setFlag .Z _ _)).trans (setFlag .N _ _)).trans (setCyc _ _)

theorem logic (f : Byte → Byte → Byte) (src : Source) (s : State) :
    Frame [.A, .flag .Z, .flag .N] s (logic f src s) := by
  rw [logic_eq]
  exact ((setA _ s).trans (setZN _ _)).trans (setCyc _ _)

theorem bitTest (src : Source) (s : State) : Frame [.flag .Z, .flag .V, .flag .N] s (bitTest src s) := by
  rw [bitTest_eq]
  exact (((setFlag .Z _ s).trans (setFlag .V _ _)).trans (setFlag .N _ _)).trans (setCyc _ _)

theorem load (reg : Reg) (src : Source) (s : State) :
    Frame [regPart reg, .flag .Z, .flag .N] s (load reg src s) := by
  rw [load_eq]
  exact ((setReg reg _ s).trans (setZN _ _)).trans (setCyc _ _)

theorem putReg (reg : Reg) (v : Byte) (s : State) : Frame [regPart reg, .flag .Z, .flag .N] s (putReg reg v s) :=
  ((setReg reg v s).trans (setZN v _)).trans (tick 1 _)

theorem store (reg : Reg) (m : MemOperand) (s : State) : Frame [] s (store reg m s) := by
  rw [store_eq]
  exact (write _ _ s).trans (setCyc _ _)

/-- A read-modify-write changes what its status function changes. -/
theorem modify {f : ModifyFn} {ps : List Part} (hf : ∀ v t, Frame ps t (t.setP (f v t.p).2)) (m : MemOperand)
    (s : State) : Frame ps s (modify f m s) := by
  rw [modify_eq]
  exact ((write _ _ s).trans (setCyc _ _)).trans (hf _ _)

/-- A shift of the accumulator changes it and what its status function changes. -/
theorem operateAcc {f : ModifyFn} {ps : List Part} (hf : ∀ v t, Frame ps t (t.setP (f v t.p).2)) (s : State) :
    Frame (.A :: ps) s (operateAcc f s) := by
  rw [operateAcc_eq]
  exact ((setCyc _ s).trans (setA _ _)).trans (hf s.a _)

/-- The status of a shift: C from the bit shifted out, Z and N from the result. -/
theorem shifted (r : Byte) (out : Bool) (s : State) :
    Frame [.flag .C, .flag .Z, .flag .N] s (s.setP (shifted r out s.p).2) :=
  (setFlag .C out s).trans (setZN r _)

theorem push8 (v : Byte) (s : State) : Frame [.SP] s (push8 v s) := by
  rw [push8_eq]
  exact ((write _ _ s).trans (setSp _ _)).trans (setCyc _ _)

theorem push16 (w : Addr) (s : State) : Frame [.SP, .SP] s (push16 w s) := (push8 _ s).trans (push8 _ _)

theorem pop8 (s : State) : Frame [.SP] s (pop8 s).2 := (setSp _ s).trans (tick 1 _)

theorem pop16 (s : State) : Frame [.SP, .SP] s (pop16 s).2 := (pop8 s).trans (pop8 _)

theorem pla (s : State) : Frame [.SP, .A, .flag .Z, .flag .N] s (pla s) :=
  (((pop8 s).trans (setA _ _)).trans (setZN _ _)).trans (tick 2 _)

theorem plp (s : State) :
    Frame [.SP, .flag .C, .flag .Z, .flag .I, .flag .D, .flag .V, .flag .N] s (plp s) :=
  ((pop8 s).trans (setP_pulledStatus _ _)).trans (tick 2 _)

theorem jmpIndirect (ptr : Addr) (s : State) : Frame [.PC] s (jmpIndirect ptr s) := (tick 2 s).trans (setPc _ _)

theorem rts (s : State) : Frame [.SP, .SP, .PC] s (rts s) := ((pop16 s).trans (setPc _ _)).trans (tick 3 _)

theorem branch (cond : Bool) (rel8 : Byte) (s : State) : Frame [.PC] s (branch cond rel8 s) := by
  rw [branch_eq]
  exact (setPc (if cond then s.pc + sext8 rel8 else s.pc) s).trans (setCyc _ _)

theorem readVector (s : State) : Frame [] s (readVector s).2 := (tick 1 s).trans (tick 1 _)

theorem enterInterrupt (ret : Addr) (s : State) :
    Frame [.SP, .SP, .SP, .PC, .flag .B, .flag .I] s (enterInterrupt ret s) :=
  ((((((push16 ret s).trans (push8 _ _)).trans (readVector _)).trans (setPc _ _)).trans
    (setFlag .B true _)).trans (setFlag .I true _)).trans (tick 1 _)

theorem returnFromInterrupt (s : State) :
    Frame [.SP, .flag .C, .flag .Z, .flag .I, .flag .D, .flag .V, .flag .N, .SP, .SP, .PC, .flag .B] s
      (returnFromInterrupt s) :=
  (((((pop8 s).trans (setP_pulledStatus _ _)).trans (pop16 _)).trans (setPc _ _)).trans
    (setFlag .B false _)).trans (tick 2 _)

end State.Frame

/-! ### Every instruction -/

theorem eq_of_adc_next {src : Source} {s t : State} (h : adc src s = .next t) : t = addInto (fun m => m) src s := by
  rw [adc] at h
  split at h
  · cases h
  · cases h; rfl

theorem eq_of_sbc_next {src : Source} {s t : State} (h : sbc src s = .next t) :
    t = addInto (fun m => m ^^^ 0xFF) src s := by
  rw [sbc] at h
  split at h
  · cases h
  · cases h; rfl

/-- An instruction that completes changes only parts that the rules list it for. -/
theorem exec_frame {i : Instr} {s t : State} (h : exec i s = .next t) :
    ∃ parts, s.Frame parts t ∧ ∀ p ∈ parts, i.mnemonic ∈ p.writers := by
  have hs := exec_shape i
  generalize i.mnemonic = m, i.operand = o, exec i = e at hs h ⊢
  cases hs with
  | adc src => cases eq_of_adc_next h; exact ⟨_, .addInto _ src s, by decide⟩
  | sbc src => cases eq_of_sbc_next h; exact ⟨_, .addInto _ src s, by decide⟩
  | cmp src | cpx src | cpy src => cases h; exact ⟨_, .compare _ src s, by decide⟩
  | and src | ora src | eor src => cases h; exact ⟨_, .logic _ src s, by decide⟩
  | bit m => cases h; exact ⟨_, .bitTest _ s, by decide⟩
  | lda src | ldx src | ldy src => cases h; exact ⟨_, .load _ src s, by decide⟩
  | sta m | stx m | sty m => cases h; exact ⟨_, .store _ m s, by decide⟩
  | inc m | dec m => cases h; exact ⟨_, .modify (fun _ => .setZN _) m s, by decide⟩
  | asl m | lsr m | rol m | ror m => cases h; exact ⟨_, .modify (fun _ => .shifted _ _) m s, by decide⟩
  | aslAcc | lsrAcc | rolAcc | rorAcc => cases h; exact ⟨_, .operateAcc (fun _ => .shifted _ _) s, by decide⟩
  | tax | tay | txa | tya | inx | iny | dex | dey => cases h; exact ⟨_, .putReg _ _ s, by decide⟩
  | tsx => cases h; exact ⟨_, ((State.Frame.setX _ s).trans (.setZN _ _)).trans (.tick 1 _), by decide⟩
  | txs => cases h; exact ⟨_, (State.Frame.setSp _ s).trans (.tick 1 _), by decide⟩
  | pha | php => cases h; exact ⟨_, (State.Frame.push8 _ s).trans (.tick 1 _), by decide⟩
  | pla => cases h; exact ⟨_, .pla s, by decide⟩
  | plp => cases h; exact ⟨_, .plp s, by decide⟩
  | jmpAbs addr => cases h; exact ⟨_, .setPc addr s, by decide⟩
  | jmpInd ptr => cases h; exact ⟨_, .jmpIndirect ptr s, by decide⟩
  | jsr addr => cases h; exact ⟨_, ((State.Frame.push16 _ s).trans (.setPc addr _)).trans (.tick 1 _), by decide⟩
  | rts => cases h; exact ⟨_, .rts s, by decide⟩
  | brk => cases h; exact ⟨_, .enterInterrupt _ s, by decide⟩
  | rti => cases h; exact ⟨_, .returnFromInterrupt s, by decide⟩
  | bpl o | bmi o | bvc o | bvs o | bcc o | bcs o | bne o | beq o => cases h; exact ⟨_, .branch _ o s, by decide⟩
  | clc | sec | cli | sei | clv | cld | sed =>
    cases h; exact ⟨_, (State.Frame.setFlag _ _ s).trans (.tick 1 _), by decide⟩
  | nop => cases h; exact ⟨_, .tick 1 s, by decide⟩

/-- A part changes only in the instructions the rules list for it. -/
theorem mem_writers_of_not_same {i : Instr} {s t : State} (h : exec i s = .next t) {p : Part} (hp : ¬ p.Same s t) :
    i.mnemonic ∈ p.writers := by
  obtain ⟨parts, hf, hw⟩ := exec_frame h
  exact hw p (not_imp_comm.mp (hf.same p) hp)

theorem exec_unusedBit {i : Instr} {s t : State} (h : exec i s = .next t) : unusedBit t.p = unusedBit s.p :=
  of_not_not fun hp => List.not_mem_nil (mem_writers_of_not_same h (p := .bit5) hp)

theorem exec_cfg {i : Instr} {s t : State} (h : exec i s = .next t) : t.cfg = s.cfg :=
  of_not_not fun hp => List.not_mem_nil (mem_writers_of_not_same h (p := .cfg) hp)

theorem exec_inv {i : Instr} {s t : State} (h : exec i s = .next t) (hs : s.Inv) : t.Inv := by
  obtain ⟨parts, hf, hw⟩ := exec_frame h
  exact hf.inv (fun h5 => List.not_mem_nil (hw _ h5)) hs

/-- The memory forms of the shifts and rotates keep `A` (10_state.md rule R22). -/
theorem exec_a_of_shift {i : Instr} {s t : State} (h : exec i s = .next t)
    (hi : i.mnemonic ∈ [.ASL, .LSR, .ROL, .ROR]) : i.operand = .acc ∨ t.a = s.a := by
  have hs := exec_shape i
  generalize i.mnemonic = m, i.operand = o, exec i = e at hs hi h ⊢
  cases hs with
  | asl m | lsr m | rol m | ror m => cases h; rw [modify_eq]; exact .inr rfl
  | aslAcc | lsrAcc | rolAcc | rorAcc => exact .inl rfl
  | _ => exact absurd hi (by decide)

/-! ### The invariant -/

theorem State.Frame.pastFetch (n : Nat) (s : State) : s.Frame [.PC] (s.pastFetch n) := (setPc _ s).trans (tick n _)

theorem step_inv {s t : State} (hs : s.Inv) (h : step s = .next t) : t.Inv := by
  rcases step_cases s with ⟨-, hr⟩ | ⟨i, he, -⟩
  · cases hr.symm.trans h
  · exact exec_inv (he.symm.trans h) ((State.Frame.pastFetch i.length s).inv (by simp) hs)

theorem stateAfterHalt_inv {s : State} (hs : s.Inv) : (stateAfterHalt s).Inv :=
  (State.Frame.pastFetch 1 s).inv (by simp) hs

theorem hostSetFlag_inv (f : Flag) (b : Bool) {s : State} (hs : s.Inv) : (hostSetFlag f b s).Inv :=
  (State.Frame.setFlag f b s).inv (by simp) hs

theorem hostWriteReg_inv (r : HostReg) (v : Byte) {s : State} (hs : s.Inv) : (hostWriteReg r v s).Inv := by
  cases r <;> exact hs

theorem hostWriteMem_inv (addr : Addr) (v : Byte) {s : State} (hs : s.Inv) : (hostWriteMem addr v s).Inv :=
  (State.Frame.write addr v s).inv (by simp) hs

theorem afterReset_inv (cfg : Config) (resetPc : Addr) {m : Memory} (h : m.wf = true) :
    (State.afterReset cfg resetPc m).Inv :=
  ⟨h, show unusedBit 0x00 = false by decide⟩

/-- Settles O10: the fetch moves `PC` and `CYC` alone, and no instruction writes bit 5 or leaves memory uncanonical. -/
theorem stepKeepsTheInvariant : Obligations.StepKeepsTheInvariant := fun _ _ => step_inv

/-- Settles O12, by induction on how the state is reached: reset has the invariant and each operation keeps it. -/
theorem reachableStatesHaveBit5Clear : Obligations.ReachableStatesHaveBit5Clear := by
  intro s h
  induction h with
  | reset cfg resetPc initMem hm => exact afterReset_inv cfg resetPc hm
  | step _ hs ih => exact step_inv ih hs
  | halt _ _ _ ih => exact stateAfterHalt_inv ih
  | startCall _ ih => exact ih
  | setFlag _ f b ih => exact hostSetFlag_inv f b ih
  | writeReg _ r v ih => exact hostWriteReg_inv r v ih
  | writeMem _ addr v ih => exact hostWriteMem_inv addr v ih

/-! ### Who writes each register and each flag -/

/-- Settles O58: a register that differs is a part that changed, and the memory forms of the shifts keep `A`. -/
theorem onlyTheListedInstructionsWriteEachRegister : Obligations.OnlyTheListedInstructionsWriteEachRegister :=
  fun _ _ _ h =>
    ⟨fun ha => ⟨mem_writers_of_not_same h (p := .A) ha, fun hi => (exec_a_of_shift h hi).resolve_right ha⟩,
      mem_writers_of_not_same h (p := .X), mem_writers_of_not_same h (p := .Y), mem_writers_of_not_same h (p := .SP),
      mem_writers_of_not_same h (p := .PC), exec_cfg h⟩

/-- Settles O59: a flag that differs is a part that changed. -/
theorem onlyTheListedInstructionsWriteEachFlag : Obligations.OnlyTheListedInstructionsWriteEachFlag :=
  fun _ _ _ h => ⟨fun f => mem_writers_of_not_same h (p := .flag f), exec_unusedBit h⟩

/-! ### The status codec and host access -/

/-- Settles O26: `set_flag` changes one bit, bit by bit. -/
theorem flagsAreTheNamedBits : Obligations.FlagsAreTheNamedBits :=
  ⟨rfl, fun f b p _ hi => ⟨rfl, setFlag_getLsbD f b p hi⟩⟩

/-- Settles O27: `SetZN` is two `set_flag`s. -/
theorem setZNFollowsTheValue : Obligations.SetZNFollowsTheValue := by
  intro v p
  refine ⟨?_, ?_, setZN_unusedBit v p, fun f hZ hN => ?_⟩
  · rw [getFlag_setZN, if_neg (by decide), if_pos rfl]
    rfl
  · rw [getFlag_setZN, if_pos rfl, BitVec.msb_eq_getLsbD_last]
  · rw [getFlag_setZN, if_neg hN, if_neg hZ]

theorem hostReadReg_hostWriteReg_same (r : HostReg) (v : Byte) (s : State) :
    hostReadReg r (hostWriteReg r v s) = v := by cases r <;> rfl

theorem hostReadReg_hostWriteReg_of_ne {r q : HostReg} (h : q ≠ r) (v : Byte) (s : State) :
    hostReadReg q (hostWriteReg r v s) = hostReadReg q s := by
  cases r <;> cases q <;> trivial

/-- Writing back what a register held undoes a write to it. -/
theorem hostWriteReg_restore (r : HostReg) (v : Byte) (s : State) :
    hostWriteReg r (hostReadReg r s) (hostWriteReg r v s) = s := by cases r <;> rfl

/-- Settles O23: each host write is one named update, and putting the old value back gives the state itself. -/
theorem hostWritesOneFieldOnly : Obligations.HostWritesOneFieldOnly := by
  intro s
  refine ⟨fun f b => ⟨getFlag_setFlag_same f b s.p, fun g hg => getFlag_setFlag_of_ne hg b s.p,
      setFlag_unusedBit f b s.p, rfl⟩, fun r v => ⟨hostReadReg_hostWriteReg_same r v s,
      fun q hq => hostReadReg_hostWriteReg_of_ne hq v s, hostWriteReg_restore r v s⟩,
    fun addr v hw => ⟨Memory.read_write_same hw addr.toNat v, fun other ho => ?_, rfl⟩⟩
  exact Memory.read_write_of_ne s.mem (toNat_ne_of_ne ho) v

end Sys2Proof.Machine

end

/-! ## What a step reads from memory and writes to it (20_memory.md) -/

section

namespace Sys2Proof.Machine

/-! ### Memory as data -/

/-- Above the address space a canonical list reads as unlisted. -/
theorem Memory.read_above {m : Memory} {lo addr : Nat} (hw : Memory.wfFrom lo m = true) (h : 65536 ≤ addr) :
    m.read addr = Memory.unlisted addr := by
  induction m generalizing lo with
  | nil => rfl
  | cons c rest ih =>
    obtain ⟨k, v⟩ := c
    obtain ⟨-, hk, -, hrest⟩ := Memory.wfFrom_cons.mp hw
    rw [Memory.read, if_neg (by omega)]
    exact ih hrest

/-- Canonical memories that read alike on the address space are one list. -/
theorem Memory.eq_of_read_addr_eq {m m' : Memory} (hw : m.wf = true) (hw' : m'.wf = true)
    (h : ∀ addr : Addr, m.read addr.toNat = m'.read addr.toNat) : m = m' := by
  refine Memory.eq_of_read_eq hw hw' fun addr => ?_
  rcases Nat.lt_or_ge addr 65536 with hlt | hge
  · have ha := h (BitVec.ofNat 16 addr)
    rwa [BitVec.toNat_ofNat, Nat.mod_eq_of_lt hlt] at ha
  · rw [Memory.read_above hw hge, Memory.read_above hw' hge]

/-- Settles O25: the laws of `write`, and canonical lists are determined by what they read as on the address space. -/
theorem memoryReadsTheLastWrite : Obligations.MemoryReadsTheLastWrite :=
  ⟨fun m addr _ v hw => ⟨Memory.read_write_same hw addr.toNat v,
      fun ho => Memory.read_write_of_ne m (toNat_ne_of_ne ho) v, Memory.wf_write_addr hw addr v⟩,
    fun _ _ => Memory.eq_of_read_addr_eq⟩

/-! ### Memory after each shared operation -/

@[simp] theorem addInto_mem (f : Byte → Byte) (src : Source) (s : State) : (addInto f src s).mem = s.mem := by
  rw [addInto_eq]

@[simp] theorem compare_mem (reg : Reg) (src : Source) (s : State) : (compare reg src s).mem = s.mem := by
  rw [compare_eq]

@[simp] theorem logic_mem (f : Byte → Byte → Byte) (src : Source) (s : State) : (logic f src s).mem = s.mem := by
  rw [logic_eq]

@[simp] theorem bitTest_mem (src : Source) (s : State) : (bitTest src s).mem = s.mem := by
  rw [bitTest_eq]

@[simp] theorem load_mem (reg : Reg) (src : Source) (s : State) : (load reg src s).mem = s.mem := by
  simp [load_eq]

@[simp] theorem putReg_mem (reg : Reg) (v : Byte) (s : State) : (putReg reg v s).mem = s.mem := by
  simp [putReg_eq]

@[simp] theorem branch_mem (cond : Bool) (rel8 : Byte) (s : State) : (branch cond rel8 s).mem = s.mem := by
  rw [branch_eq]

@[simp] theorem operateAcc_mem (f : ModifyFn) (s : State) : (operateAcc f s).mem = s.mem := rfl

@[simp] theorem pla_mem (s : State) : (pla s).mem = s.mem := by
  rw [pla_eq]

@[simp] theorem plp_mem (s : State) : (plp s).mem = s.mem := by
  rw [plp_eq]

@[simp] theorem jmpIndirect_mem (ptr : Addr) (s : State) : (jmpIndirect ptr s).mem = s.mem := by
  rw [jmpIndirect_eq]

@[simp] theorem rts_mem (s : State) : (rts s).mem = s.mem := by
  rw [rts_eq]

@[simp] theorem returnFromInterrupt_mem (s : State) : (returnFromInterrupt s).mem = s.mem := by
  rw [returnFromInterrupt_eq]

@[simp] theorem store_mem (reg : Reg) (m : MemOperand) (s : State) :
    (store reg m s).mem = s.mem.write (effAddr m s).toNat (s.reg reg) := by
  rw [store_eq]

@[simp] theorem modify_mem (f : ModifyFn) (m : MemOperand) (s : State) :
    (modify f m s).mem = s.mem.write (effAddr m s).toNat (f (s.byteAt (effAddr m s)) s.p).1 := by
  rw [modify_eq]

/-! ### The forms that store nothing -/

/-- Only the storing mnemonics change memory, and of the shifts and rotates only the memory forms (20_memory.md rule R66). -/
theorem exec_mem_of_not_storing {i : Instr} {s t : State} (h : exec i s = .next t)
    (hi : i.mnemonic ∉ Forms.storing ∨ i.operand = .acc) : t.mem = s.mem := by
  have hs := exec_shape i
  generalize i.mnemonic = m, i.operand = o, exec i = e at hs hi h
  cases hs with
  | adc src => cases eq_of_adc_next h; exact addInto_mem _ src s
  | sbc src => cases eq_of_sbc_next h; exact addInto_mem _ src s
  | cmp src | cpx src | cpy src => cases h; exact compare_mem _ src s
  | and src | ora src | eor src => cases h; exact logic_mem _ src s
  | bit m => cases h; exact bitTest_mem _ s
  | lda src | ldx src | ldy src => cases h; exact load_mem _ src s
  | tax | tay | txa | tya | inx | iny | dex | dey => cases h; exact putReg_mem _ _ s
  | bpl o | bmi o | bvc o | bvs o | bcc o | bcs o | bne o | beq o => cases h; exact branch_mem _ o s
  | sta | stx | sty | inc | dec | asl | lsr | rol | ror | pha | php | jsr | brk => simp [Forms.storing] at hi
  | pla | plp | rts | rti | jmpInd ptr => cases h; simp
  | _ => cases h; rfl

/-- Settles O55: memory is the same list. -/
theorem onlyStoringFormsChangeMemory : Obligations.OnlyStoringFormsChangeMemory :=
  fun _ _ _ h hi addr => congrArg (Memory.read · addr.toNat) (exec_mem_of_not_storing h hi)

/-! ### The forms that write the byte at their effective address -/

/-- A storing form with a memory operand writes one byte and `CYC`; a store leaves `P`, the others may write it. -/
theorem exec_of_storing {i : Instr} {m : MemOperand} (ho : i.operand = .mem m)
    (hi : i.mnemonic ∈ [.STA, .STX, .STY, .INC, .DEC, .ASL, .LSR, .ROL, .ROR]) (s : State) :
    ∃ (v p : Byte) (n : Nat),
      exec i s = .next { s with mem := s.mem.write (effAddr m s).toNat v, p := p, cyc := n } ∧
      (i.mnemonic ∈ [.STA, .STX, .STY] → p = s.p) := by
  have hs := exec_shape i
  generalize i.mnemonic = k, i.operand = o, exec i = e at hs ho hi ⊢
  cases hs with
  | sta | stx | sty => cases ho; exact ⟨_, s.p, _, congrArg _ (store_eq _ m s), fun _ => rfl⟩
  | inc | dec | asl | lsr | rol | ror => cases ho; exact ⟨_, _, _, congrArg _ (modify_eq _ m s), by simp⟩
  | aslAcc | lsrAcc | rolAcc | rorAcc => cases ho
  | _ => exact absurd hi (by decide)

theorem incDec_not_mem_writesFlag {f : Flag} (hZ : f ≠ .Z) (hN : f ≠ .N) :
    ∀ k ∈ [Mnemonic.INC, .DEC], k ∉ Forms.writesFlag f := by
  cases f with
  | Z => exact absurd rfl hZ
  | N => exact absurd rfl hN
  | _ => decide

theorem storing_not_mem_writesFlag {f : Flag} (hC : f ≠ .C) (hZ : f ≠ .Z) (hN : f ≠ .N) :
    ∀ k ∈ [Mnemonic.STA, .STX, .STY, .INC, .DEC, .ASL, .LSR, .ROL, .ROR], k ∉ Forms.writesFlag f := by
  cases f with
  | C => exact absurd rfl hC
  | Z => exact absurd rfl hZ
  | N => exact absurd rfl hN
  | _ => decide

/-- An instruction keeps every flag that the rules do not list it for. -/
theorem exec_flag_of_not_mem_writesFlag {i : Instr} {s t : State} (h : exec i s = .next t) {f : Flag}
    (hf : i.mnemonic ∉ Forms.writesFlag f) : t.flag f = s.flag f :=
  of_not_not fun hn => hf (mem_writers_of_not_same h (p := .flag f) hn)

/-- Settles O56: the one write is at the resolver's address, and the flags that may differ are those the rules list. -/
theorem storingFormsChangeOneByte : Obligations.StoringFormsChangeOneByte := by
  intro i m s ho hi
  obtain ⟨v, p, n, he, hp⟩ := exec_of_storing ho hi s
  refine ⟨_, he, fun addr ha => ?_, rfl, rfl, rfl, rfl, rfl, exec_unusedBit he, hp,
    fun hk f hZ hN => exec_flag_of_not_mem_writesFlag he (incDec_not_mem_writesFlag hZ hN _ hk),
    fun f hC hZ hN => exec_flag_of_not_mem_writesFlag he (storing_not_mem_writesFlag hC hZ hN _ hi)⟩
  rw [resolve_eq] at ha
  exact Memory.read_write_of_ne s.mem (toNat_ne_of_ne ha) v

/-! ### Replaying the accesses of a step -/

@[simp] theorem replay_nil (m : Memory) : replay [] m = some m := rfl

/-- A read of what `s` holds passes in the memory of `s`. -/
@[simp] theorem replay_readAt_cons (s : State) (addr : Addr) (l : List Access) :
    replay (readAt s addr :: l) s.mem = replay l s.mem := if_pos rfl

@[simp] theorem replay_write_cons (addr : Addr) (v : Byte) (l : List Access) (m : Memory) :
    replay (.write addr v :: l) m = replay l (m.write addr.toNat v) := rfl

@[simp] theorem replay_readAccesses (o : Operand) (s : State) : replay (readAccesses o s) s.mem = some s.mem := by
  cases o with
  | mem m => simp [readAccesses, operandAccesses]
  | _ => rfl

@[simp] theorem replay_storeAccesses (v : Byte) (m : MemOperand) (s : State) :
    replay (storeAccesses v (.mem m) s) s.mem = some (s.mem.write (effAddr m s).toNat v) := by
  simp [storeAccesses, operandAccesses]

@[simp] theorem replay_modifyAccesses (f : ModifyFn) (m : MemOperand) (s : State) :
    replay (modifyAccesses f (.mem m) s) s.mem =
      some (s.mem.write (effAddr m s).toNat (f (s.byteAt (effAddr m s)) s.p).1) := by
  simp [modifyAccesses, operandAccesses]

/-- A push changes no byte above the stack page. -/
theorem Memory.read_write_stackAddr (m : Memory) {addr : Addr} (h : 512 ≤ addr.toNat) (sp v : Byte) :
    (m.write (stackAddr sp).toNat v).read addr.toNat = m.read addr.toNat := by
  have := sp.isLt
  exact m.read_write_of_ne (by rw [stackAddr_toNat]; omega) v

/-- The accesses of interrupt entry: three pushes, then the vector, which no push has changed. -/
theorem replay_interruptAccesses (ret : Addr) (s : State) :
    replay [.write (stackAddr s.sp) (hiByte ret), .write (stackAddr (s.sp - 1)) (loByte ret),
      .write (stackAddr (s.sp - 2)) (pushedStatus s.p), readAt s vectorAddr, readAt s (vectorAddr + 1)] s.mem =
      some (enterInterrupt ret s).mem := by
  have hsp : s.sp - 1 - 1 = s.sp - 2 := by bv_omega
  have hlo : 512 ≤ vectorAddr.toNat := by decide
  have hhi : 512 ≤ (vectorAddr + 1).toNat := by decide
  simp only [enterInterrupt_eq, hsp, replay, readAt, State.byteAt, Memory.read_write_stackAddr _ hlo,
    Memory.read_write_stackAddr _ hhi, if_true]

/-- The accesses after the fetch of an instruction that completes explain what it does to memory. -/
theorem replay_dataAccesses {i : Instr} {s t : State} (h : exec i s = .next t) :
    replay (dataAccesses i s) s.mem = some t.mem := by
  have hs := exec_shape i
  rw [dataAccesses]
  generalize i.mnemonic = m, i.operand = o, exec i = e at hs h ⊢
  cases hs with
  | adc src => cases eq_of_adc_next h; rw [addInto_mem]; exact replay_readAccesses _ s
  | sbc src => cases eq_of_sbc_next h; rw [addInto_mem]; exact replay_readAccesses _ s
  | cmp src | cpx src | cpy src => cases h; rw [compare_mem]; exact replay_readAccesses _ s
  | and src | ora src | eor src => cases h; rw [logic_mem]; exact replay_readAccesses _ s
  | bit m => cases h; rw [bitTest_mem]; exact replay_readAccesses _ s
  | lda src | ldx src | ldy src => cases h; rw [load_mem]; exact replay_readAccesses _ s
  | sta m | stx m | sty m => cases h; rw [store_mem]; exact replay_storeAccesses _ m s
  | inc m | dec m | asl m | lsr m | rol m | ror m => cases h; rw [modify_mem]; exact replay_modifyAccesses _ m s
  | tax | tay | txa | tya | inx | iny | dex | dey => cases h; rw [putReg_mem]; rfl
  | bpl o | bmi o | bvc o | bvs o | bcc o | bcs o | bne o | beq o => cases h; rw [branch_mem]; rfl
  | pla | plp | rts | rti | jmpInd ptr => cases h; simp
  | brk => cases h; exact replay_interruptAccesses _ s
  | _ => cases h; rfl

theorem step_of_fetchInstr {s t : State} {i : Instr} (h : fetchInstr s = .instr i t) : step s = exec i t := by
  simp only [step, h]

/-- Settles O17: the fetched bytes are reads of the memory before the step, and the rest is `replay_dataAccesses`. The
canonical form is not needed, since no instruction reads back a byte it has written. -/
theorem accessesInOrderExplainTheStep : Obligations.AccessesInOrderExplainTheStep := by
  intro s t _ h
  rcases fetchInstr_cases s with ⟨hu, -⟩ | ⟨i, hf, -⟩
  · rw [step_of_unknownOpcode ((dispatchRow_eq_none_iff _).mp hu)] at h
    cases h
  · rw [step_of_fetchInstr hf] at h
    have hn := not_decimal_of_next h
    rw [State.pastFetch_flag] at hn
    rw [stepAccesses_instr hf hn, replay_fetchAccesses]
    exact replay_dataAccesses h

/-! ### Steps that answer no next state -/

/-- An instruction that answers no next state is an ADC or SBC with D set. -/
theorem decimal_of_exec_stops {i : Instr} {s : State} (h : ∀ t, exec i s ≠ .next t) :
    isDecimalSensitive i = true ∧ s.flag .D = true :=
  of_not_not fun hn => (exec_of_not_decimal hn).elim h

/-- A step stops exactly on an unknown opcode byte, or on an ADC or SBC with D set. -/
theorem step_stops_iff (s : State) :
    (∀ t, step s ≠ .next t) ↔
      s.byteAt s.pc ∈ Forms.unknownOpcodes ∨
      ∃ i rest, decode (bytesFrom s 3 s.pc) = .instr i rest ∧ isDecimalSensitive i = true ∧ s.flag .D = true := by
  constructor
  · intro hstop
    rcases step_decode_cases s with ⟨hu, -⟩ | ⟨i, rest, hd, hs⟩
    · exact .inl hu
    · rw [hs] at hstop
      have hdec := decimal_of_exec_stops hstop
      rw [State.pastFetch_flag] at hdec
      exact .inr ⟨i, rest, hd, hdec⟩
  · rintro (hu | ⟨i, rest, hd, hi, hD⟩) t ht
    · cases (step_of_unknownOpcode hu).symm.trans ht
    · rw [← State.pastFetch_flag i.length s .D] at hD
      cases (exec_of_decimal hi hD).symm.trans ((step_of_decode hd).symm.trans ht)

/-- A step that stops reads its opcode byte alone: no row holds it, or the decimal check stands before the operand. -/
theorem stepAccesses_of_stops {s : State} (hstop : ∀ t, step s ≠ .next t) : stepAccesses s = [readAt s s.pc] := by
  rcases fetchInstr_cases s with ⟨-, hf⟩ | ⟨i, hf, -⟩
  · exact stepAccesses_unknown hf
  · rw [step_of_fetchInstr hf] at hstop
    obtain ⟨hi, hD⟩ := decimal_of_exec_stops hstop
    exact stepAccesses_decimal hf hi hD

/-- Settles O60: a step stops on an unknown opcode byte or on a decimal-mode fault, and both list the opcode byte alone. -/
theorem stoppingStepsReadOnlyTheOpcodeByte : Obligations.StoppingStepsReadOnlyTheOpcodeByte :=
  fun s => ⟨stepAccesses_of_stops, step_stops_iff s⟩

end Sys2Proof.Machine

end

/-! ## Encoding and decoding (30_encoding.md) -/

section

namespace Sys2Proof

open Sys2Proof.Machine

/-! ### The decoder over a row of the dispatch table -/

/-- The length in bytes of the instructions a row makes, opcode byte included (30_encoding.md rule R85). -/
def OpcodeRow.length : OpcodeRow → Nat
  | .none1 _ => 1
  | .byte2 _ => 2
  | .word3 _ => 3

theorem OpcodeRow.one_le_length (row : OpcodeRow) : 1 ≤ row.length := by cases row <;> simp [OpcodeRow.length]

theorem OpcodeRow.length_le_three (row : OpcodeRow) : row.length ≤ 3 := by cases row <;> simp [OpcodeRow.length]

theorem decode_truncated {op : Byte} {row : OpcodeRow} (h : dispatchRow op = some row) {tail : List Byte}
    (hlt : tail.length + 1 < row.length) : decode (op :: tail) = .truncated := by
  cases row with
  | none1 i => exact absurd hlt (by simp [OpcodeRow.length])
  | byte2 make =>
    match tail with
    | [] => simp only [decode, h]
    | _ :: _ => exact absurd hlt (by simp [OpcodeRow.length])
  | word3 make =>
    match tail with
    | [] | [_] => simp only [decode, h]
    | _ :: _ :: _ => exact absurd hlt (by simp [OpcodeRow.length])

/-- As many bytes as the row has decode, to an instruction that those bytes encode, and the rest is left. -/
theorem decode_complete {op : Byte} {row : OpcodeRow} (h : dispatchRow op = some row) {tail : List Byte}
    (hle : row.length ≤ tail.length + 1) :
    ∃ i, decode (op :: tail) = .instr i (tail.drop (row.length - 1)) ∧
      encode i = op :: tail.take (row.length - 1) ∧ i.length = row.length := by
  have hs := dispatchRow_sound h
  cases row with
  | none1 i =>
    obtain ⟨hop, hbytes, hlen⟩ := hs
    exact ⟨i, decode_none1 h tail, by rw [encode, hop, hbytes]; rfl, hlen⟩
  | byte2 make =>
    match tail with
    | [] => exact absurd hle (by simp [OpcodeRow.length])
    | b :: rest =>
      obtain ⟨hop, hbytes, hlen⟩ := hs b
      exact ⟨make b, decode_byte2 h b rest, by rw [encode, hop, hbytes]; rfl, hlen⟩
  | word3 make =>
    match tail with
    | [] | [_] => exact absurd hle (by simp [OpcodeRow.length])
    | l :: g :: rest =>
      obtain ⟨hop, hbytes, hlen⟩ := hs (word16 g l)
      exact ⟨make (word16 g l), decode_word3 h l g rest,
        by rw [encode, hop, hbytes, loByte_word16, hiByte_word16]; rfl, hlen⟩

theorem decode_eq_unknownOpcode_iff (op : Byte) (tail : List Byte) :
    decode (op :: tail) = .unknownOpcode op ↔ dispatchRow op = none := by
  refine ⟨fun hu => Option.eq_none_iff_forall_ne_some.mpr fun row h => ?_, fun h => decode_none h tail⟩
  rcases Nat.lt_or_ge (tail.length + 1) row.length with hlt | hle
  · cases (decode_truncated h hlt).symm.trans hu
  · obtain ⟨i, hi, -, -⟩ := decode_complete h hle
    cases hi.symm.trans hu

/-! ### The two round trips -/

/-- The row of the instruction's opcode byte makes it from its own operand bytes. -/
theorem decode_encode_append (i : Instr) (rest : List Byte) : decode (encode i ++ rest) = .instr i rest := by
  obtain ⟨row, hrow, hmakes⟩ := dispatchRow_opcodeByte i
  rw [encode]
  cases row with
  | none1 j =>
    obtain ⟨rfl, hbytes⟩ := hmakes
    rw [hbytes]
    exact decode_none1 hrow rest
  | byte2 make =>
    obtain ⟨b, hmake, hbytes⟩ := hmakes
    rw [hbytes, ← hmake]
    exact decode_byte2 (hmake ▸ hrow) b rest
  | word3 make =>
    obtain ⟨w, hmake, hbytes⟩ := hmakes
    rw [hbytes]
    exact (decode_word3 hrow (loByte w) (hiByte w) rest).trans (by rw [word16_hi_lo, hmake])

theorem eq_encode_append_of_decode {bs rest : List Byte} {i : Instr} (h : decode bs = .instr i rest) :
    bs = encode i ++ rest := by
  match bs with
  | [] => cases h
  | op :: tail =>
    cases hrow : dispatchRow op with
    | none => cases (decode_none hrow tail).symm.trans h
    | some row =>
      rcases Nat.lt_or_ge (tail.length + 1) row.length with hlt | hle
      · cases (decode_truncated hrow hlt).symm.trans h
      · obtain ⟨j, hj, henc, -⟩ := decode_complete hrow hle
        cases hj.symm.trans h
        rw [henc, List.cons_append, List.take_append_drop]

/-- The opcode byte comes first. -/
theorem opcodeByte_of_decode {op : Byte} {tail rest : List Byte} {i : Instr}
    (h : decode (op :: tail) = .instr i rest) : opcodeByte i = op :=
  (List.head_eq_of_cons_eq (eq_encode_append_of_decode h)).symm

/-- Settles O1: every constructor has its row, so the hypothesis of well-formedness is not needed. -/
theorem decodeOfEncodeIsTheInstruction : Obligations.DecodeOfEncodeIsTheInstruction :=
  fun i rest _ => decode_encode_append i rest

/-- Settles O2: the bytes that a row takes are the encoding of the instruction it makes of them. -/
theorem encodeOfDecodeGivesTheBytesBack : Obligations.EncodeOfDecodeGivesTheBytesBack :=
  fun _ _ _ => eq_encode_append_of_decode

/-! ### Unknown opcode bytes, lengths and samples -/

/-- Settles O3: the decoder calls a byte unknown exactly when no row holds it. -/
theorem unknownOpcodesAreTheListed105 : Obligations.UnknownOpcodesAreTheListed105 :=
  ⟨by decide, by decide, fun op rest => (decode_eq_unknownOpcode_iff op rest).trans (dispatchRow_eq_none_iff op)⟩

/-- Settles O4: the length is that of the opcode byte's row. -/
theorem lengthIsAFunctionOfTheOpcodeByte : Obligations.LengthIsAFunctionOfTheOpcodeByte := by
  intro op hop
  rw [← dispatchRow_eq_none_iff] at hop
  obtain ⟨row, hrow⟩ := Option.ne_none_iff_exists'.mp hop
  refine ⟨row.length, row.one_le_length, row.length_le_three, fun rest hle => ?_⟩
  obtain ⟨i, hi, -, hlen⟩ := decode_complete hrow hle
  exact ⟨i, hi, hlen⟩

/-- Settles O5: the decoder is run on each sample. -/
theorem sampleBytesDecodeAsTheRulesSay : Obligations.SampleBytesDecodeAsTheRulesSay := by
  unfold Obligations.SampleBytesDecodeAsTheRulesSay
  decide

end Sys2Proof

end

/-! ## What an instruction costs (30_encoding.md rule R83, 46_dispatch_loop.md rule R238) -/

section

namespace Sys2Proof.Machine

/-! ### The table's cost is the instruction's bytes, its accesses and its ticks -/

/-- The modes whose effective address may lie in another page than their base (40_addressing.md rule R115). -/
def indexesBase : Mode → Bool
  | .absx | .absy | .indy => true
  | _ => false

/-- The ticks of a mode that are spent whatever the state (40_addressing.md rules R105 to R110). -/
def fixedModeTicks (fl : Flavour) : Mode → Nat
  | .zpx | .zpy | .indx => 1
  | .absx | .absy | .indy => if fl = .store then 1 else 0
  | _ => 0

/-- The rows marked "(+1 on page cross)" are the indexed ones that resolve their operand to read it. -/
theorem paysPageCross_eq (i : Instr) :
    paysPageCross i = (flavourOf i.mnemonic == .read && indexesBase i.mode) := by
  cases i <;> rfl

theorem modeTicks_eq (fl : Flavour) (m : MemOperand) (s : State) :
    modeTicks fl m s = fixedModeTicks fl m.mode +
      if (fl == .read && indexesBase m.mode) && crossesPage (baseAddr m s) (effAddr m s) then 1 else 0 := by
  cases m <;> cases fl <;> simp [modeTicks, indexCycles, fixedModeTicks, indexesBase, MemOperand.mode]

/-- The ticks are the fixed ones and the conditional cycles. -/
theorem tickTotal_eq (i : Instr) (s : State) :
    tickTotal i s =
      ruleTicks i.mnemonic + fixedModeTicks (flavourOf i.mnemonic) i.mode + conditionalCycles i s := by
  rw [tickTotal, conditionalCycles, paysPageCross_eq, Instr.mode, Nat.add_assoc]
  cases i.operand with
  | mem m => exact congrArg _ (modeTicks_eq _ m s)
  | _ => simp [fixedModeTicks, Operand.mode]

/-- The cycles column, row by row: the instruction's bytes, its accesses and its fixed ticks. -/
theorem baseCycles_eq (i : Instr) (s : State) :
    baseCycles i =
      i.length + (dataAccesses i s).length +
        (ruleTicks i.mnemonic + fixedModeTicks (flavourOf i.mnemonic) i.mode) := by
  cases i <;> rfl

theorem totalCycles_eq (i : Instr) (s : State) :
    totalCycles i s = i.length + (dataAccesses i s).length + tickTotal i s := by
  rw [totalCycles, baseCycles_eq i s, tickTotal_eq, Nat.add_assoc]

/-! ### The machine counts each access and each tick -/

@[simp] theorem readAccesses_mem_length (m : MemOperand) (s : State) :
    (readAccesses (.mem m) s).length = (pointerAccesses m s).length + 1 := List.length_append

@[simp] theorem storeAccesses_mem_length (v : Byte) (m : MemOperand) (s : State) :
    (storeAccesses v (.mem m) s).length = (pointerAccesses m s).length + 1 := List.length_append

@[simp] theorem modifyAccesses_mem_length (f : ModifyFn) (m : MemOperand) (s : State) :
    (modifyAccesses f (.mem m) s).length = (pointerAccesses m s).length + 2 := List.length_append

theorem resolveCycles_eq (fl : Flavour) (m : MemOperand) (s : State) :
    resolveCycles fl m s = (pointerAccesses m s).length + modeTicks fl m s := by
  cases m <;> simp [resolveCycles, pointerAccesses, zpPtrAccesses, modeTicks]

/-- The ticks that the operand of an instruction calls for, by its mnemonic: those of its mode, or those of a branch. -/
def operandTicks (k : Mnemonic) : Operand → State → Nat
  | .mem m, s => modeTicks (flavourOf k) m s
  | .rel o, s => if branchTaken k s.p then (if crossesPage s.pc (s.pc + sext8 o) then 2 else 1) else 0
  | _, _ => 0

theorem tickTotal_eq_operandTicks (i : Instr) (s : State) :
    tickTotal i s = ruleTicks i.mnemonic + operandTicks i.mnemonic i.operand s := by
  rw [tickTotal, conditionalCycles]
  cases i.operand <;> rfl

theorem sourceCycles_eq {k : Mnemonic} (hk : flavourOf k = .read) (hr : ruleTicks k = 0) (src : Source) (s : State) :
    sourceCycles src s =
      (readAccesses src.operand s).length + (ruleTicks k + operandTicks k src.operand s) := by
  rw [hr, Nat.zero_add]
  cases src with
  | imm v => rfl
  | mem m =>
    simp only [Source.operand, readAccesses_mem_length, operandTicks, hk]
    rw [sourceCycles, resolveCycles_eq, Nat.add_right_comm]

theorem addInto_cyc (f : Byte → Byte) (src : Source) (s : State) :
    (addInto f src s).cyc = s.cyc + sourceCycles src s := by
  rw [addInto_eq]

theorem compare_cyc (reg : Reg) (src : Source) (s : State) :
    (compare reg src s).cyc = s.cyc + sourceCycles src s := by
  rw [compare_eq]

theorem logic_cyc (f : Byte → Byte → Byte) (src : Source) (s : State) :
    (logic f src s).cyc = s.cyc + sourceCycles src s := by
  rw [logic_eq]

theorem bitTest_cyc (src : Source) (s : State) : (bitTest src s).cyc = s.cyc + sourceCycles src s := by
  rw [bitTest_eq]

theorem load_cyc (reg : Reg) (src : Source) (s : State) :
    (load reg src s).cyc = s.cyc + sourceCycles src s := by
  rw [load_eq, State.tick_cyc, State.setZN_cyc, State.setReg_cyc]

theorem store_cyc {k : Mnemonic} (hk : flavourOf k = .store) (hr : ruleTicks k = 0) (reg : Reg) (m : MemOperand)
    (s : State) :
    (store reg m s).cyc =
      s.cyc + ((storeAccesses (s.reg reg) (.mem m) s).length + (ruleTicks k + operandTicks k (.mem m) s)) := by
  rw [store_eq, hr, operandTicks, hk, storeAccesses_mem_length]
  simp only [resolveCycles_eq]
  omega

theorem modify_cyc {k : Mnemonic} (hk : flavourOf k = .store) (hr : ruleTicks k = 1) (f : ModifyFn) (m : MemOperand)
    (s : State) :
    (modify f m s).cyc =
      s.cyc + ((modifyAccesses f (.mem m) s).length + (ruleTicks k + operandTicks k (.mem m) s)) := by
  rw [modify_eq, hr, operandTicks, hk, modifyAccesses_mem_length]
  simp only [resolveCycles_eq]
  omega

theorem branch_cyc {k : Mnemonic} {cond : Bool} {s : State} (hc : branchTaken k s.p = cond) (hr : ruleTicks k = 0)
    (o : Byte) : (branch cond o s).cyc = s.cyc + (ruleTicks k + operandTicks k (.rel o) s) := by
  rw [branch_eq, hr, operandTicks, hc, Nat.zero_add]

/-- An instruction that completes adds its accesses and its ticks to `CYC`. -/
theorem exec_cyc {i : Instr} {s t : State} (h : exec i s = .next t) :
    t.cyc = s.cyc + ((dataAccesses i s).length + tickTotal i s) := by
  have hs := exec_shape i
  rw [dataAccesses, tickTotal_eq_operandTicks]
  generalize i.mnemonic = k, i.operand = o, exec i = e at hs h ⊢
  cases hs with
  | adc src => cases eq_of_adc_next h; rw [addInto_cyc]; exact congrArg _ (sourceCycles_eq rfl rfl src s)
  | sbc src => cases eq_of_sbc_next h; rw [addInto_cyc]; exact congrArg _ (sourceCycles_eq rfl rfl src s)
  | cmp src | cpx src | cpy src => cases h; rw [compare_cyc]; exact congrArg _ (sourceCycles_eq rfl rfl src s)
  | and src | ora src | eor src => cases h; rw [logic_cyc]; exact congrArg _ (sourceCycles_eq rfl rfl src s)
  | bit m => cases h; rw [bitTest_cyc]; exact congrArg _ (sourceCycles_eq rfl rfl (.mem m) s)
  | lda src | ldx src | ldy src => cases h; rw [load_cyc]; exact congrArg _ (sourceCycles_eq rfl rfl src s)
  | sta m | stx m | sty m => cases h; exact store_cyc rfl rfl _ m s
  | inc m | dec m | asl m | lsr m | rol m | ror m => cases h; exact modify_cyc rfl rfl _ m s
  | bpl o | bmi o | bvc o | bvs o | bcc o | bcs o | bne o | beq o =>
    cases h
    rw [List.length_nil, Nat.zero_add]
    refine branch_cyc ?_ ?_ o <;> rfl
  | brk => cases h; rw [enterInterrupt_eq]; rfl
  | rti => cases h; rw [returnFromInterrupt_eq]; rfl
  | _ => cases h; rfl

/-- Settles O14: the decoded instruction runs from the state past its bytes, and the table's cost is those bytes, its
accesses and its ticks. -/
theorem everyStepCostsWhatTheTableSays : Obligations.EveryStepCostsWhatTheTableSays := by
  intro s t i rest hd h
  refine ⟨opcodeByte_of_decode hd, ?_⟩
  rw [step_of_decode hd] at h
  rw [exec_cyc h, State.pastFetch_cyc, totalCycles_eq]
  omega

end Sys2Proof.Machine

end

/-! ## Effective addresses and their cost (40_addressing.md rules R104 to R110, R114, R115) -/

section

namespace Sys2Proof.Machine

/-! ### Addresses as integers -/

theorem zpAddr_toNat (z : Byte) : (zpAddr z).toNat = z.toNat := by
  simp [zpAddr, word16_toNat]

theorem zext8_toNat (v : Byte) : (zext8 v).toNat = v.toNat :=
  BitVec.toNat_setWidth_of_le (by decide)

/-- An index is added modulo 65536 (rules R107, R110). -/
theorem add_zext8_toNat (base : Addr) (index : Byte) :
    (base + zext8 index).toNat = (base.toNat + index.toNat) % 65536 := by
  rw [BitVec.toNat_add, zext8_toNat]

/-- An index is added modulo 256 inside page zero (rules R105, R109). -/
theorem zpAddr_add_toNat (z index : Byte) : (zpAddr (z + index)).toNat = (z.toNat + index.toNat) % 256 := by
  rw [zpAddr_toNat, BitVec.toNat_add]

theorem zpPtrHiAddr_toNat (w : PtrWrap) (z : Byte) :
    (zpPtrHiAddr w z).toNat =
      match w with
      | .wrap => (z.toNat + 1) % 256
      | .carry => z.toNat + 1 := by
  cases w with
  | wrap => exact zpAddr_add_toNat z 1
  | carry =>
    have := z.isLt
    rw [zpPtrHiAddr, BitVec.toNat_add, zpAddr_toNat]
    exact Nat.mod_eq_of_lt (show z.toNat + 1 < 2 ^ 16 by omega)

/-- The two bytes of a zero-page pointer are read low byte first (rule R114). -/
theorem zpPointer_toNat (z : Byte) (s : State) :
    (zpPointer z s).toNat =
      (s.mem.read z.toNat).toNat + 256 * (s.mem.read (zpPtrHiAddr s.cfg.zpPtrWrap z).toNat).toNat := by
  rw [zpPointer, word16_toNat, State.byteAt, State.byteAt, zpAddr_toNat, Nat.mul_comm, Nat.add_comm]

/-- Settles O30: the resolver's address is `effAddr` in either flavour, and each of its sums is one of the integers above. -/
theorem effectiveAddressesWrapAsTheRulesSay : Obligations.EffectiveAddressesWrapAsTheRulesSay := by
  intro s fl z w next ptr
  have hnext (z : Byte) : (zpPtrHiAddr s.cfg.zpPtrWrap z).toNat = next z := zpPtrHiAddr_toNat _ z
  have hptr (z : Byte) : (zpPointer z s).toNat = ptr z := by
    rw [zpPointer_toNat, hnext]
  simp only [resolve_eq]
  refine ⟨zpAddr_toNat z, zpAddr_add_toNat z s.x, zpAddr_add_toNat z s.y, rfl, add_zext8_toNat w s.x,
    add_zext8_toNat w s.y, hptr (z + s.x), ?_⟩
  rw [← hptr z]
  exact add_zext8_toNat (zpPointer z s) s.y

/-! ### The page cross in integers -/

/-- The high byte changes exactly when the low byte carries, the wrap at 0xFFFF included (rule R115). -/
theorem crossesPage_add_zext8 (base : Addr) (index : Byte) :
    crossesPage base (base + zext8 index) = true ↔ base.toNat % 256 + index.toNat > 255 := by
  have hb := base.isLt
  have hi := index.isLt
  rw [crossesPage, bne_iff_ne, ne_eq, ← BitVec.toNat_inj, hiByte_toNat, hiByte_toNat, add_zext8_toNat]
  omega

/-- The extra cycle of an indexed address, from the low byte of its base (rules R107, R108, R110). -/
theorem indexCycles_eq {m : MemOperand} {s : State} {index : Byte} (h : effAddr m s = baseAddr m s + zext8 index)
    (fl : Flavour) :
    indexCycles fl m s = if fl = .store ∨ (baseAddr m s).toNat % 256 + index.toNat > 255 then 1 else 0 := by
  cases fl with
  | store => rfl
  | read => simp [indexCycles, h, crossesPage_add_zext8]

/-- Settles O31: the resolver spends `resolveCycles`, which a mode fixes but for the extra cycle of an indexed address. -/
theorem resolverChangesOnlyCyc : Obligations.ResolverChangesOnlyCyc := by
  intro s m fl extra
  rw [resolve_eq]
  apply congrArg s.tick
  cases m with
  | zp _ | abs _ | zpx _ | zpy _ | indx _ => rfl
  | absx _ | absy _ => exact indexCycles_eq rfl fl
  | indy _ => exact congrArg (2 + ·) (indexCycles_eq rfl fl)

end Sys2Proof.Machine

end

/-! ## Arithmetic and logic (41_arith_logic.md) -/

section

namespace Sys2Proof.Machine

/-! ### The adder (rule R120) -/

theorem byte_complement_toNat (v : Byte) : (v ^^^ 0xFF).toNat = 255 - v.toNat := by
  rw [show (0xFF : Byte) = BitVec.allOnes 8 from rfl, BitVec.xor_allOnes, BitVec.toNat_not]

/-- Complementing a byte negates its signed reading, less one. -/
theorem byte_complement_toInt (v : Byte) : (v ^^^ 0xFF).toInt = -v.toInt - 1 := by
  have hv := v.isLt
  rw [BitVec.toInt_eq_toNat_cond, BitVec.toInt_eq_toNat_cond, byte_complement_toNat]
  split <;> split <;> omega

/-- Masking with one flag's bit leaves something exactly when the bit is set. -/
theorem and_mask_ne_zero_iff (v : Byte) (f : Flag) : v &&& f.mask ≠ 0 ↔ v.getLsbD f.bit = true := by
  constructor
  · intro h
    by_contra hf
    refine h (BitVec.eq_of_getLsbD_eq fun i _ => ?_)
    rw [BitVec.getLsbD_and, Flag.mask_getLsbD]
    rcases eq_or_ne i f.bit with rfl | hi
    · simpa using hf
    · simp [hi]
  · intro h h0
    have := congrArg (BitVec.getLsbD · f.bit) h0
    simp [Flag.mask_getLsbD, h] at this

theorem addCore_toNat (a m : Byte) (c : Bool) :
    (addCore a m c).1.toNat = (a.toNat + m.toNat + c.toNat) % 256 := BitVec.toNat_ofNat _ _

theorem addCore_overflow_iff (a m : Byte) (c : Bool) :
    (addCore a m c).2.2 = true ↔ a.msb = m.msb ∧ (addCore a m c).1.msb ≠ a.msb := by
  simp [addCore]

/-- Two operands of one sign leave the signed range exactly when the sum's bit 7 is not theirs; two of different signs never
do. -/
theorem addCore_overflow_iff_signed (a m : Byte) (c : Bool) :
    (addCore a m c).2.2 = true ↔ a.toInt + m.toInt + c.toNat < -128 ∨ 127 < a.toInt + m.toInt + c.toNat := by
  have ha := a.isLt
  have hm := m.isLt
  have hc := c.toNat_le
  simp only [addCore_overflow_iff, BitVec.msb_eq_decide, ne_eq, decide_eq_decide, addCore_toNat, BitVec.toInt_eq_toNat_cond]
  split <;> split <;> omega

/-- The adder in integers. -/
theorem addCore_eq (a m : Byte) (c : Bool) :
    addCore a m c =
      (BitVec.ofNat 8 ((a.toNat + m.toNat + c.toNat) % 256), decide (255 < a.toNat + m.toNat + c.toNat),
        decide (a.toInt + m.toInt + c.toNat < -128 ∨ 127 < a.toInt + m.toInt + c.toNat)) := by
  refine Prod.ext ?_ (Prod.ext rfl ?_)
  · rw [← addCore_toNat, BitVec.ofNat_toNat, BitVec.setWidth_eq]
  · exact Bool.eq_iff_iff.mpr ((addCore_overflow_iff_signed a m c).trans decide_eq_true_iff.symm)

/-- The adder on the complemented operand subtracts it and the borrow `1 - c` (rule R122). -/
theorem addCore_complement_eq (a m : Byte) (c : Bool) :
    addCore a (m ^^^ 0xFF) c =
      (BitVec.ofNat 8 ((a.toNat + 512 - m.toNat - (1 - c.toNat)) % 256), decide (m.toNat + (1 - c.toNat) ≤ a.toNat),
        decide (a.toInt - m.toInt - (1 - c.toNat : Nat) < -128 ∨ 127 < a.toInt - m.toInt - (1 - c.toNat : Nat))) := by
  have hm := m.isLt
  have hc := c.toNat_le
  have hsum : (a.toNat + (255 - m.toNat) + c.toNat) % 256 = (a.toNat + 512 - m.toNat - (1 - c.toNat)) % 256 := by omega
  have hcarry : 255 < a.toNat + (255 - m.toNat) + c.toNat ↔ m.toNat + (1 - c.toNat) ≤ a.toNat := by omega
  have hsigned : a.toInt + (-m.toInt - 1) + c.toNat = a.toInt - m.toInt - (1 - c.toNat : Nat) := by omega
  rw [addCore_eq, byte_complement_toNat, byte_complement_toInt, hsum, hsigned, decide_eq_decide.mpr hcarry]

/-- Subtracting what was added, with the complement of its carry-in, gives the first operand back (95_test_vectors.md S2). -/
theorem addCore_complement_undoes_addCore (a m : Byte) (c : Bool) :
    (addCore (addCore a m c).1 (m ^^^ 0xFF) (!c)).1 = a := by
  have ha := a.isLt
  have hm := m.isLt
  apply BitVec.eq_of_toNat_eq
  rw [addCore_toNat, addCore_toNat, byte_complement_toNat]
  cases c <;> simp only [Bool.not_false, Bool.not_true, Bool.toNat_false, Bool.toNat_true] <;> omega

/-- Settles O28: the signed range is read off the two sign bits, and the bit form masks bit 7 of the two sign changes. -/
theorem adderGivesSumCarryAndSignedOverflow : Obligations.AdderGivesSumCarryAndSignedOverflow := by
  intro a m c
  have hsign := addCore_overflow_iff a m c
  refine ⟨addCore_toNat a m c, decide_eq_true_iff, hsign, ?_, addCore_overflow_iff_signed a m c⟩
  rw [hsign, show (0x80 : Byte) = Flag.mask .N from rfl, and_mask_ne_zero_iff]
  simp only [BitVec.msb_eq_getLsbD_last, Flag.bit, BitVec.getLsbD_and, BitVec.getLsbD_not, BitVec.getLsbD_xor]
  cases a.getLsbD 7 <;> cases m.getLsbD 7 <;> simp

/-! ### Rows of forms that read an operand -/

/-- The cycles of reading an operand when no page is crossed, its fetch left out (40_addressing.md rules R103 to R111). -/
def fixedSourceCycles : Source → Nat
  | .imm _ => 0
  | .mem (.zp _) | .mem (.abs _) | .mem (.absx _) | .mem (.absy _) => 1
  | .mem (.zpx _) | .mem (.zpy _) => 2
  | .mem (.indy _) => 3
  | .mem (.indx _) => 4

/-- The extra cycle of an indexed read is the `p` of the instruction rules (40_addressing.md rule R115). -/
theorem sourceCycles_eq_fixed (src : Source) (s : State) :
    sourceCycles src s = fixedSourceCycles src + Forms.pageCross src s := by
  cases src with
  | imm v => rfl
  | mem m =>
    cases m with
    | zp _ | zpx _ | zpy _ | abs _ | indx _ => rfl
    | absx _ | absy _ | indy _ =>
      simp only [sourceCycles, resolveCycles, indexCycles, crossesPage, bne_iff_ne, fixedSourceCycles, Forms.pageCross,
        effAddr, baseAddr]
      omega

/-- A row says what its instruction does: the opcode byte, the meaning `f` of its operand, and the cycles of reading it. -/
structure RowRuns (f : Source → State → Result) (r : Forms.Row) : Prop where
  opcode : opcodeByte r.instr = r.opcode
  exec : ∀ s, exec r.instr s = f r.src s
  cycles : r.cycles - r.instr.length = fixedSourceCycles r.src

theorem RowRuns.cycAfter {f : Source → State → Result} {r : Forms.Row} (h : RowRuns f r) (s : State) :
    r.cycAfter s = s.cyc + sourceCycles r.src s := by
  rw [Forms.Row.cycAfter, h.cycles, sourceCycles_eq_fixed, Nat.add_assoc]

section

variable {b : Byte} {w : Addr} {r : Forms.Row}

theorem adc_runs (h : r ∈ Forms.adc b w) : RowRuns adc r := by
  fin_cases h <;> exact ⟨rfl, fun _ => rfl, rfl⟩

theorem sbc_runs (h : r ∈ Forms.sbc b w) : RowRuns sbc r := by
  fin_cases h <;> exact ⟨rfl, fun _ => rfl, rfl⟩

theorem cmp_runs (h : r ∈ Forms.cmp b w) : RowRuns (fun src s => .next (compare .A src s)) r := by
  fin_cases h <;> exact ⟨rfl, fun _ => rfl, rfl⟩

theorem cpx_runs (h : r ∈ Forms.cpx b w) : RowRuns (fun src s => .next (compare .X src s)) r := by
  fin_cases h <;> exact ⟨rfl, fun _ => rfl, rfl⟩

theorem cpy_runs (h : r ∈ Forms.cpy b w) : RowRuns (fun src s => .next (compare .Y src s)) r := by
  fin_cases h <;> exact ⟨rfl, fun _ => rfl, rfl⟩

theorem and_runs (h : r ∈ Forms.and b w) : RowRuns (fun src s => .next (logic (· &&& ·) src s)) r := by
  fin_cases h <;> exact ⟨rfl, fun _ => rfl, rfl⟩

theorem ora_runs (h : r ∈ Forms.ora b w) : RowRuns (fun src s => .next (logic (· ||| ·) src s)) r := by
  fin_cases h <;> exact ⟨rfl, fun _ => rfl, rfl⟩

theorem eor_runs (h : r ∈ Forms.eor b w) : RowRuns (fun src s => .next (logic (· ^^^ ·) src s)) r := by
  fin_cases h <;> exact ⟨rfl, fun _ => rfl, rfl⟩

theorem bit_runs (h : r ∈ Forms.bit b w) : RowRuns (fun src s => .next (bitTest src s)) r := by
  fin_cases h <;> exact ⟨rfl, fun _ => rfl, rfl⟩

end

/-! ### ADC and SBC -/

/-- Settles O9: the two mnemonics whose meaning looks at D, and every other one, as the shapes of `exec` have it. -/
theorem onlyAdcAndSbcWithDSetFault : Obligations.OnlyAdcAndSbcWithDSetFault :=
  fun _ _ => ⟨fun ⟨hi, hd⟩ => exec_of_decimal hi hd, exec_of_not_decimal⟩

@[simp] theorem hostSetFlag_flag (f g : Flag) (b : Bool) (s : State) :
    (hostSetFlag f b s).flag g = if g = f then b else s.flag g := getFlag_setFlag g f b s.p

theorem addInto_flag_D (f : Byte → Byte) (src : Source) (s : State) : (addInto f src s).flag .D = s.flag .D :=
  (State.Frame.addInto f src s).same (.flag .D) (by simp)

/-- Settles O29: neither the adder nor the host's write of C changes D, so both instructions run the adder. -/
theorem sbcUndoesAdc : Obligations.SbcUndoesAdc := by
  intro s m hd
  refine ⟨_, _, adc_next hd (.imm m), sbc_next ?_ (.imm m), ?_⟩
  · rw [hostSetFlag_flag, if_neg (by decide), addInto_flag_D, hd]
  · rw [addInto_eq, hostSetFlag_flag, if_pos rfl, addInto_eq]
    exact addCore_complement_undoes_addCore s.a m (s.flag .C)

/-- Settles O37: the adder in integers on the operand. -/
theorem adcAddsOrFaultsInDecimalMode : Obligations.AdcAddsOrFaultsInDecimalMode := by
  intro b w s r hr
  have h := adc_runs hr
  refine ⟨h.opcode, fun hd => (h.exec s).trans (adc_fault hd r.src), fun hd => ?_⟩
  rw [h.exec, h.cycAfter, adc_next hd, addInto_eq, addCore_eq]
  rfl

/-- Settles O38: the adder in integers on the complemented operand. -/
theorem sbcSubtractsOrFaultsInDecimalMode : Obligations.SbcSubtractsOrFaultsInDecimalMode := by
  intro b w s r hr
  have h := sbc_runs hr
  refine ⟨h.opcode, fun hd => (h.exec s).trans (sbc_fault hd r.src), fun hd => ?_⟩
  rw [h.exec, h.cycAfter, sbc_next hd, addInto_eq, addCore_complement_eq]
  rfl

/-! ### Compare, logic and BIT -/

/-- A compare of any register (rule R124), its status written out flag by flag. -/
theorem exec_compareRow {reg : Reg} {r : Forms.Row} (h : RowRuns (fun src s => .next (compare reg src s)) r) (s : State) :
    opcodeByte r.instr = r.opcode ∧
      exec r.instr s = .next { s with
        p := setFlag .N ((s.reg reg - sourceValue r.src s).getLsbD 7) (setFlag .Z (decide (s.reg reg = sourceValue r.src s))
          (setFlag .C (decide ((sourceValue r.src s).toNat ≤ (s.reg reg).toNat)) s.p))
        cyc := r.cycAfter s } := by
  refine ⟨h.opcode, ?_⟩
  rw [h.exec, h.cycAfter, compare_eq]
  rfl

theorem exec_logicRow {f : Byte → Byte → Byte} {r : Forms.Row} (h : RowRuns (fun src s => .next (logic f src s)) r)
    (s : State) :
    opcodeByte r.instr = r.opcode ∧
      exec r.instr s = .next { s with
        a := f s.a (sourceValue r.src s), p := setZN (f s.a (sourceValue r.src s)) s.p, cyc := r.cycAfter s } := by
  refine ⟨h.opcode, ?_⟩
  rw [h.exec, h.cycAfter, logic_eq]

/-- Settles O39: the three mnemonics are one compare of three registers. -/
theorem compareWritesCarryZeroNegative : Obligations.CompareWritesCarryZeroNegative :=
  fun _ _ s => ⟨fun _ hr => exec_compareRow (cmp_runs hr) s, fun _ hr => exec_compareRow (cpx_runs hr) s,
    fun _ hr => exec_compareRow (cpy_runs hr) s⟩

/-- Settles O40: the three mnemonics are one operation on `A` with three functions. -/
theorem logicOperatesOnA : Obligations.LogicOperatesOnA :=
  fun _ _ s => ⟨fun _ hr => exec_logicRow (and_runs hr) s, fun _ hr => exec_logicRow (ora_runs hr) s,
    fun _ hr => exec_logicRow (eor_runs hr) s⟩

/-- Settles O41: BIT writes Z, V and N in turn. -/
theorem bitTestsTheOperand : Obligations.BitTestsTheOperand := by
  intro b w s r hr
  have h := bit_runs hr
  refine ⟨h.opcode, ?_⟩
  rw [h.exec, h.cycAfter, bitTest_eq]
  rfl

end Sys2Proof.Machine

end

/-! ## Loads, stores, transfers, increment and decrement (42_load_store_transfer_incdec.md) -/

section

namespace Sys2Proof.Machine

/-! ### Rows of forms that write a memory operand -/

/-- A row says what its instruction does: the opcode byte, the meaning `f` of its operand, and the cycles of resolving it and
of the `n` after that, on its accesses and its tick (40_addressing.md rule R111). -/
structure MemRowRuns (f : MemOperand → State → State) (n : Nat) (r : Forms.MemRow) : Prop where
  opcode : opcodeByte r.instr = r.opcode
  exec : ∀ s, exec r.instr s = .next (f r.mem s)
  cycles : ∀ s, r.cycles - r.instr.length = resolveCycles .store r.mem s + n

theorem MemRowRuns.cycAfter {f : MemOperand → State → State} {n : Nat} {r : Forms.MemRow} (h : MemRowRuns f n r)
    (s : State) : r.cycAfter s = s.cyc + resolveCycles .store r.mem s + n := by
  rw [Forms.MemRow.cycAfter, h.cycles s, Nat.add_assoc]

section

variable {b : Byte} {w : Addr}

theorem lda_runs {r : Forms.Row} (h : r ∈ Forms.lda b w) : RowRuns (fun src s => .next (load .A src s)) r := by
  fin_cases h <;> exact ⟨rfl, fun _ => rfl, rfl⟩

theorem ldx_runs {r : Forms.Row} (h : r ∈ Forms.ldx b w) : RowRuns (fun src s => .next (load .X src s)) r := by
  fin_cases h <;> exact ⟨rfl, fun _ => rfl, rfl⟩

theorem ldy_runs {r : Forms.Row} (h : r ∈ Forms.ldy b w) : RowRuns (fun src s => .next (load .Y src s)) r := by
  fin_cases h <;> exact ⟨rfl, fun _ => rfl, rfl⟩

variable {r : Forms.MemRow}

theorem sta_runs (h : r ∈ Forms.sta b w) : MemRowRuns (store .A) 1 r := by
  fin_cases h <;> exact ⟨rfl, fun _ => rfl, fun _ => rfl⟩

theorem stx_runs (h : r ∈ Forms.stx b w) : MemRowRuns (store .X) 1 r := by
  fin_cases h <;> exact ⟨rfl, fun _ => rfl, fun _ => rfl⟩

theorem sty_runs (h : r ∈ Forms.sty b w) : MemRowRuns (store .Y) 1 r := by
  fin_cases h <;> exact ⟨rfl, fun _ => rfl, fun _ => rfl⟩

theorem inc_runs (h : r ∈ Forms.inc b w) : MemRowRuns (modify incFn) 3 r := by
  fin_cases h <;> exact ⟨rfl, fun _ => rfl, fun _ => rfl⟩

theorem dec_runs (h : r ∈ Forms.dec b w) : MemRowRuns (modify decFn) 3 r := by
  fin_cases h <;> exact ⟨rfl, fun _ => rfl, fun _ => rfl⟩

end

/-! ### Loads and stores -/

/-- A load of any register (rules R140 to R142). -/
theorem exec_loadRow {reg : Reg} {r : Forms.Row} (h : RowRuns (fun src s => .next (load reg src s)) r) (s : State) :
    opcodeByte r.instr = r.opcode ∧
      exec r.instr s = .next
        { (s.setReg reg (sourceValue r.src s)).setZN (sourceValue r.src s) with cyc := r.cycAfter s } := by
  refine ⟨h.opcode, ?_⟩
  rw [h.exec, h.cycAfter, load_eq, State.tick, State.setZN_cyc, State.setReg_cyc]

/-- A store of any register (rules R143 to R145). -/
theorem exec_storeRow {reg : Reg} {r : Forms.MemRow} (h : MemRowRuns (store reg) 1 r) (s : State) :
    opcodeByte r.instr = r.opcode ∧
      exec r.instr s = .next
        { s with mem := s.mem.write (effAddr r.mem s).toNat (s.reg reg), cyc := r.cycAfter s } := by
  refine ⟨h.opcode, ?_⟩
  rw [h.exec, h.cycAfter, store_eq]

/-- Settles O32: the three mnemonics are one load of three registers. -/
theorem loadsGiveTheOperandAndItsFlags : Obligations.LoadsGiveTheOperandAndItsFlags :=
  fun _ _ s => ⟨fun _ hr => exec_loadRow (lda_runs hr) s, fun _ hr => exec_loadRow (ldx_runs hr) s,
    fun _ hr => exec_loadRow (ldy_runs hr) s⟩

/-- Settles O33: the three mnemonics are one store of three registers. -/
theorem storesWriteTheRegister : Obligations.StoresWriteTheRegister :=
  fun _ _ s => ⟨fun _ hr => exec_storeRow (sta_runs hr) s, fun _ hr => exec_storeRow (stx_runs hr) s,
    fun _ hr => exec_storeRow (sty_runs hr) s⟩

/-! ### Transfers -/

/-- Settles O34: each transfer is `putReg` (TSX the same three writes), but TXS, which has no `SetZN`. -/
theorem transfersCopyAndOnlyTxsSparesTheFlags : Obligations.TransfersCopyAndOnlyTxsSparesTheFlags :=
  fun _ => ⟨⟨rfl, rfl⟩, ⟨rfl, rfl⟩, ⟨rfl, rfl⟩, ⟨rfl, rfl⟩, ⟨rfl, rfl⟩, ⟨rfl, rfl⟩⟩

/-! ### Increment and decrement -/

theorem ofNat_toNat_add_one_mod (v : Byte) : BitVec.ofNat 8 ((v.toNat + 1) % 256) = v + 1 :=
  BitVec.eq_of_toNat_eq (by simp)

/-- Adding 255 is subtracting 1 modulo 256. -/
theorem ofNat_toNat_add_255_mod (v : Byte) : BitVec.ofNat 8 ((v.toNat + 255) % 256) = v - 1 :=
  BitVec.eq_of_toNat_eq (by simp [BitVec.toNat_sub, Nat.add_comm])

/-- Settles O35: each of the four is `putReg` of the register plus or minus 1, as bytes wrap. -/
theorem registerIncrementAndDecrementWrap : Obligations.RegisterIncrementAndDecrementWrap := by
  intro s
  simp only [ofNat_toNat_add_one_mod, ofNat_toNat_add_255_mod]
  exact ⟨⟨rfl, rfl⟩, ⟨rfl, rfl⟩, ⟨rfl, rfl⟩, ⟨rfl, rfl⟩⟩

/-- A read-modify-write of any function, INC, DEC and the shifts among them (40_addressing.md rule R111). -/
theorem exec_modifyRow {f : ModifyFn} {r : Forms.MemRow} (h : MemRowRuns (modify f) 3 r) (s : State) :
    opcodeByte r.instr = r.opcode ∧
      exec r.instr s = .next
        { s with
          mem := s.mem.write (effAddr r.mem s).toNat (f (s.byteAt (effAddr r.mem s)) s.p).1
          p := (f (s.byteAt (effAddr r.mem s)) s.p).2
          cyc := r.cycAfter s } := by
  refine ⟨h.opcode, ?_⟩
  rw [h.exec, h.cycAfter, modify_eq]

/-- Settles O36: INC and DEC are one read-modify-write with two functions. -/
theorem memoryIncrementAndDecrementWrap : Obligations.MemoryIncrementAndDecrementWrap := by
  intro b w s
  simp only [ofNat_toNat_add_one_mod, ofNat_toNat_add_255_mod]
  exact ⟨fun _ hr => exec_modifyRow (inc_runs hr) s, fun _ hr => exec_modifyRow (dec_runs hr) s⟩

end Sys2Proof.Machine

end

/-! ## Shifts, rotates and branches (43_shift_rotate_branch.md) -/

section

namespace Sys2Proof.Machine

/-! ### One bit position, in integers -/

theorem byte_getLsbD_seven (v : Byte) : v.getLsbD 7 = decide (128 ≤ v.toNat) :=
  (BitVec.msb_eq_getLsbD_last v).symm.trans (BitVec.msb_eq_decide v)

theorem byte_getLsbD_zero (v : Byte) : v.getLsbD 0 = decide (v.toNat % 2 = 1) := Nat.testBit_zero v.toNat

theorem byte_shiftLeft_one_toNat (v : Byte) : (v <<< 1).toNat = (2 * v.toNat) % 256 := by
  rw [BitVec.toNat_shiftLeft, Nat.shiftLeft_eq, Nat.mul_comm]

theorem byte_shiftRight_one_toNat (v : Byte) : (v >>> 1).toNat = v.toNat / 2 := by
  rw [BitVec.toNat_ushiftRight, Nat.shiftRight_eq_div_pow]

/-- The carry that a left rotate ors in falls on bit 0, which the shift has cleared, so it adds. -/
theorem byte_rotateLeft_toNat (v : Byte) (c : Bool) :
    ((v <<< 1) ||| (if c then 0x01 else 0x00 : Byte)).toNat = (2 * v.toNat) % 256 + c.toNat := by
  have heven : (2 * v.toNat) % 256 = 2 ^ 1 * (v.toNat % 128) := by omega
  have hc : (if c then 0x01 else 0x00 : Byte).toNat = c.toNat := by cases c <;> rfl
  rw [BitVec.toNat_or, byte_shiftLeft_one_toNat, hc, heven, Nat.two_pow_add_eq_or_of_lt c.toNat_lt]

/-- The carry that a right rotate ors in falls on bit 7, which the shift has cleared, so it adds. -/
theorem byte_rotateRight_toNat (v : Byte) (c : Bool) :
    ((v >>> 1) ||| (if c then 0x80 else 0x00 : Byte)).toNat = v.toNat / 2 + 128 * c.toNat := by
  have hlow : v.toNat / 2 < 2 ^ 7 := by omega
  have hc : (if c then 0x80 else 0x00 : Byte).toNat = 2 ^ 7 * c.toNat := by cases c <;> rfl
  rw [BitVec.toNat_or, byte_shiftRight_one_toNat, hc, Nat.or_comm, ← Nat.two_pow_add_eq_or_of_lt hlow, Nat.add_comm]

/-! ### The four operations (rules R170 to R173) -/

theorem aslFn_eq (v p : Byte) :
    aslFn v p = shifted (BitVec.ofNat 8 ((2 * v.toNat) % 256)) (decide (128 ≤ v.toNat)) p := by
  rw [aslFn, byte_getLsbD_seven, ← byte_shiftLeft_one_toNat, BitVec.ofNat_toNat, BitVec.setWidth_eq]

theorem lsrFn_eq (v p : Byte) :
    lsrFn v p = shifted (BitVec.ofNat 8 (v.toNat / 2)) (decide (v.toNat % 2 = 1)) p := by
  rw [lsrFn, byte_getLsbD_zero, ← byte_shiftRight_one_toNat, BitVec.ofNat_toNat, BitVec.setWidth_eq]

theorem rolFn_eq (v p : Byte) :
    rolFn v p =
      shifted (BitVec.ofNat 8 ((2 * v.toNat) % 256 + (getFlag .C p).toNat)) (decide (128 ≤ v.toNat)) p := by
  rw [rolFn, byte_getLsbD_seven, ← byte_rotateLeft_toNat, BitVec.ofNat_toNat, BitVec.setWidth_eq]

theorem rorFn_eq (v p : Byte) :
    rorFn v p =
      shifted (BitVec.ofNat 8 (v.toNat / 2 + 128 * (getFlag .C p).toNat)) (decide (v.toNat % 2 = 1)) p := by
  rw [rorFn, byte_getLsbD_zero, ← byte_rotateRight_toNat, BitVec.ofNat_toNat, BitVec.setWidth_eq]

/-! ### Shifts and rotates on A -/

/-- `Operate(acc, f)` of a shift with result `q` and the bit `out` shifted out. -/
theorem exec_accShift {f : ModifyFn} {i : Instr} {s : State} {q : Byte} {out : Bool}
    (hf : f s.a s.p = shifted q out s.p) (h : exec i s = .next (operateAcc f s)) :
    exec i s = .next { s with a := q, p := setZN q (setFlag .C out s.p), cyc := s.cyc + 1 } := by
  rw [h, operateAcc_eq, hf, shifted]

/-- Settles O42: each accumulator form is `operateAcc` of its function, which the integers above describe. -/
theorem shiftsAndRotatesOnA : Obligations.ShiftsAndRotatesOnA :=
  fun s =>
    ⟨⟨rfl, exec_accShift (aslFn_eq s.a s.p) rfl⟩, ⟨rfl, exec_accShift (lsrFn_eq s.a s.p) rfl⟩,
      ⟨rfl, exec_accShift (rolFn_eq s.a s.p) rfl⟩, ⟨rfl, exec_accShift (rorFn_eq s.a s.p) rfl⟩⟩

/-! ### Shifts and rotates on memory -/

section

variable {b : Byte} {w : Addr} {r : Forms.MemRow}

theorem asl_runs (h : r ∈ Forms.asl b w) : MemRowRuns (modify aslFn) 3 r := by
  fin_cases h <;> exact ⟨rfl, fun _ => rfl, fun _ => rfl⟩

theorem lsr_runs (h : r ∈ Forms.lsr b w) : MemRowRuns (modify lsrFn) 3 r := by
  fin_cases h <;> exact ⟨rfl, fun _ => rfl, fun _ => rfl⟩

theorem rol_runs (h : r ∈ Forms.rol b w) : MemRowRuns (modify rolFn) 3 r := by
  fin_cases h <;> exact ⟨rfl, fun _ => rfl, fun _ => rfl⟩

theorem ror_runs (h : r ∈ Forms.ror b w) : MemRowRuns (modify rorFn) 3 r := by
  fin_cases h <;> exact ⟨rfl, fun _ => rfl, fun _ => rfl⟩

end

/-- `Operate(mode, f)` in a memory mode, of a shift with result `q` and the bit `out` shifted out. -/
theorem exec_shiftRow {f : ModifyFn} {r : Forms.MemRow} (h : MemRowRuns (modify f) 3 r) {s : State} {q : Byte} {out : Bool}
    (hf : f (s.byteAt (effAddr r.mem s)) s.p = shifted q out s.p) :
    opcodeByte r.instr = r.opcode ∧
      exec r.instr s = .next
        { s with
          mem := s.mem.write (effAddr r.mem s).toNat q, p := setZN q (setFlag .C out s.p), cyc := r.cycAfter s } := by
  have hexec := exec_modifyRow h s
  rwa [hf, shifted] at hexec

/-- Settles O43: the same functions as on `A`, in a read-modify-write. -/
theorem shiftsAndRotatesOnMemory : Obligations.ShiftsAndRotatesOnMemory :=
  fun _ _ s =>
    ⟨fun _ hr => exec_shiftRow (asl_runs hr) (aslFn_eq _ s.p), fun _ hr => exec_shiftRow (lsr_runs hr) (lsrFn_eq _ s.p),
      fun _ hr => exec_shiftRow (rol_runs hr) (rolFn_eq _ s.p), fun _ hr => exec_shiftRow (ror_runs hr) (rorFn_eq _ s.p)⟩

/-! ### Branches -/

theorem sext8_toNat (v : Byte) : ((sext8 v).toNat : Int) = v.toInt % 65536 := by
  rw [sext8, BitVec.signExtend, BitVec.toNat_ofInt]
  exact Int.toNat_of_nonneg (Int.emod_nonneg v.toInt (by decide))

/-- A signed offset is added modulo 65536 (rule R174). -/
theorem add_sext8_toNat (base : Addr) (offset : Byte) :
    ((base + sext8 offset).toNat : Int) = ((base.toNat : Int) + offset.toInt) % 65536 := by
  rw [BitVec.toNat_add, Int.natCast_emod, Int.natCast_add, sext8_toNat]
  exact Int.add_emod_emod ..

theorem crossesPage_iff (base ea : Addr) : crossesPage base ea = true ↔ ¬ ea.toNat / 256 = base.toNat / 256 := by
  rw [crossesPage, bne_iff_ne, ne_eq, ← BitVec.toNat_inj, hiByte_toNat, hiByte_toNat]

theorem branch_true (rel8 : Byte) (s : State) :
    branch true rel8 s =
      { s with
        pc := s.pc + sext8 rel8
        cyc := s.cyc + if (s.pc + sext8 rel8).toNat / 256 = s.pc.toNat / 256 then 1 else 2 } := by
  simp only [branch_eq, if_true, crossesPage_iff, ite_not]

/-- Each branch is `branch` on whether the flag it tests has its value (rules R175 to R182). -/
theorem exec_branchRow {rel8 : Byte} {r : Forms.BranchRow} (h : r ∈ Forms.branches rel8) (s : State) :
    opcodeByte r.instr = r.opcode ∧ exec r.instr s = .next (branch (s.flag r.flag == r.value) rel8 s) := by
  fin_cases h <;> exact ⟨rfl, by simp only [beq_true, beq_false]; rfl⟩

/-- Settles O44: an untaken branch is the identity, a taken one adds the offset. -/
theorem branchesTestOneFlag : Obligations.BranchesTestOneFlag := by
  intro rel8 s r hr
  obtain ⟨hop, hexec⟩ := exec_branchRow hr s
  refine ⟨hop, fun huntaken => ?_, fun htaken => ⟨s.pc + sext8 rel8, add_sext8_toNat s.pc rel8, ?_⟩⟩
  · rw [hexec, beq_eq_false_iff_ne.mpr huntaken]
    rfl
  · rw [hexec, beq_iff_eq.mpr htaken, branch_true]

end Sys2Proof.Machine

end

/-! ## Stack unit, jumps, subroutines and interrupts (44_stack_jump_interrupt.md) -/

section

namespace Sys2Proof.Machine

/-! ### Stack addresses and the stack pointer -/

theorem add_eq_stackAddr (sp : Byte) : 0x0100 + sp.setWidth 16 = stackAddr sp := by
  refine BitVec.eq_of_toNat_eq ?_
  have := sp.isLt
  rw [stackAddr_toNat, BitVec.toNat_add, BitVec.toNat_setWidth_of_le (by decide)]
  exact Nat.mod_eq_of_lt (show 256 + sp.toNat < 2 ^ 16 by omega)

/-- The page and the stack pointer share no bit, so `0x0100 | sp` is their sum (10_state.md rule R25). -/
theorem or_eq_stackAddr (sp : Byte) : 0x0100 ||| sp.setWidth 16 = stackAddr sp := by
  refine BitVec.eq_of_toNat_eq ?_
  rw [stackAddr_toNat, BitVec.toNat_or, BitVec.toNat_setWidth_of_le (by decide)]
  exact (Nat.two_pow_add_eq_or_of_lt sp.isLt 1).symm

theorem byte_sub_one_sub_one (sp : Byte) : sp - 1 - 1 = sp - 2 := BitVec.sub_sub sp 1 1

theorem byte_sub_one_sub_one_sub_one (sp : Byte) : sp - 1 - 1 - 1 = sp - 3 := by
  rw [byte_sub_one_sub_one, BitVec.sub_sub]
  rfl

theorem byte_add_one_add_one (sp : Byte) : sp + 1 + 1 = sp + 2 := BitVec.add_assoc sp 1 1

theorem byte_add_one_add_one_add_one (sp : Byte) : sp + 1 + 1 + 1 = sp + 3 := by
  rw [byte_add_one_add_one, BitVec.add_assoc]
  rfl

/-! ### Reading the stack after a push (rules R190 to R193) -/

theorem byteAt_push8_same {s : State} (hw : s.mem.wf = true) (v : Byte) : (push8 v s).byteAt (stackAddr s.sp) = v :=
  Memory.read_write_same hw _ v

theorem byteAt_push8_of_ne {s : State} {addr : Addr} (h : addr ≠ stackAddr s.sp) (v : Byte) :
    (push8 v s).byteAt addr = s.byteAt addr :=
  s.mem.read_write_of_ne (toNat_ne_of_ne h) v

/-- The second push of a word goes to another slot, the wrap at `SP` = 0 included. -/
theorem byteAt_push16_hi {s : State} (hw : s.mem.wf = true) (w : Addr) :
    (push16 w s).byteAt (stackAddr s.sp) = hiByte w := by
  have hne : s.sp ≠ s.sp - 1 := by bv_omega
  exact (byteAt_push8_of_ne (fun h => hne (stackAddr_injective h)) _).trans (byteAt_push8_same hw _)

theorem byteAt_push16_lo {s : State} (hw : s.mem.wf = true) (w : Addr) :
    (push16 w s).byteAt (stackAddr (s.sp - 1)) = loByte w :=
  byteAt_push8_same ((State.Frame.push8 _ s).wf hw) (loByte w)

theorem push16_sp (w : Addr) (s : State) : (push16 w s).sp = s.sp - 2 := byte_sub_one_sub_one s.sp

theorem pop16_push16_sp (w : Addr) (s : State) : (pop16 (push16 w s)).2.sp = s.sp := by
  rw [push16_eq, pop16_eq]
  simp only [BitVec.sub_add_cancel]

theorem pop16_push16_word {s : State} (hw : s.mem.wf = true) (w : Addr) : (pop16 (push16 w s)).1 = w := by
  have hlo : (push16 w s).sp + 1 = s.sp - 1 := BitVec.sub_add_cancel ..
  have hhi : (push16 w s).sp + 1 + 1 = s.sp := by rw [hlo, BitVec.sub_add_cancel]
  rw [pop16_eq, hhi, hlo, byteAt_push16_hi hw, byteAt_push16_lo hw, word16_hi_lo]

/-- Settles O46: the two pushes go to different slots, and a pop reads them in the other order. -/
theorem pushAndPopAreInverse : Obligations.PushAndPopAreInverse := by
  intro s w hw
  simp only [or_eq_stackAddr]
  exact ⟨byteAt_push16_hi hw w, byteAt_push16_lo hw w, push16_sp w s,
    fun addr hhi hlo => (byteAt_push8_of_ne hlo _).trans (byteAt_push8_of_ne hhi _),
    pop16_push16_word hw w, pop16_push16_sp w s⟩

/-! ### Pushes and pulls of one byte -/

/-- Settles O47: each is one `Push8` and a tick. -/
theorem pushesWriteOneByte : Obligations.PushesWriteOneByte := by
  intro s
  rw [← stackAddr_toNat]
  exact ⟨⟨rfl, rfl⟩, rfl, rfl⟩

/-- Settles O48: each is one `Pop8`, the write of its register, and two ticks. -/
theorem pullsReadOneByte : Obligations.PullsReadOneByte := by
  intro s
  rw [add_eq_stackAddr]
  exact ⟨⟨rfl, rfl⟩, rfl, rfl⟩

/-! ### Jumps -/

/-- The next address inside the pointer's page (40_addressing.md rule R113, `wrap`). -/
theorem jmpIndHiAddr_wrap_toNat (ptr : Addr) :
    (jmpIndHiAddr .wrap ptr).toNat = ptr.toNat / 256 * 256 + (ptr.toNat + 1) % 256 := by
  rw [jmpIndHiAddr, word16_toNat, hiByte_toNat, BitVec.toNat_add, loByte_toNat]
  exact congrArg (ptr.toNat / 256 * 256 + ·) (Nat.mod_add_mod ptr.toNat 256 1)

/-- The next address, its page changed by the carry (40_addressing.md rule R113, `carry`). -/
theorem jmpIndHiAddr_carry_toNat (ptr : Addr) : (jmpIndHiAddr .carry ptr).toNat = (ptr.toNat + 1) % 65536 :=
  BitVec.toNat_add ptr 1

/-- Settles O45: JMP indirect reads its target at the pointer and at `jmpIndHiAddr`, for each value of the parameter. -/
theorem jumpsLoadPC : Obligations.JumpsLoadPC := by
  intro w s
  have hexec : exec (.jmpInd w) s = .next (jmpIndirect w s) := rfl
  refine ⟨⟨rfl, rfl⟩, rfl, ?_⟩
  rw [hexec, jmpIndirect_eq, jmpIndTarget, State.byteAt, State.byteAt]
  cases s.cfg.jmpIndPageWrap with
  | wrap => rw [jmpIndHiAddr_wrap_toNat]
  | carry => rw [jmpIndHiAddr_carry_toNat]

/-! ### Subroutines -/

/-- Settles O49: `Push16` of `PC` - 1, the jump, and a tick. -/
theorem jsrPushesTheAddressOfItsLastByte : Obligations.JsrPushesTheAddressOfItsLastByte := by
  intro target s
  have hexec : exec (.jsr target) s = .next (((push16 (s.pc - 1) s).setPc target).tick 1) := rfl
  refine ⟨rfl, ?_⟩
  rw [hexec, push16_eq, byte_sub_one_sub_one, stackAddr_toNat, stackAddr_toNat]
  rfl

/-- A pop reads the stack and `SP` alone, so it gives the same word and `SP` whatever `PC` and `CYC` hold. -/
theorem pop16_setPc_tick (w : Addr) (n : Nat) (s : State) :
    pop16 ((s.setPc w).tick n) = ((pop16 s).1, ((pop16 s).2.setPc w).tick n) := by
  simp only [pop16_eq, State.setPc, State.tick, State.byteAt, Nat.add_right_comm _ n]

theorem exec_rts (s : State) : exec .rts s = .next (rts s) := rfl

theorem rts_pc (s : State) : (rts s).pc = (pop16 s).1 + 1 := rfl

theorem rts_sp (s : State) : (rts s).sp = (pop16 s).2.sp := rfl

/-- Settles O50: RTS pops the word that JSR has pushed, one less than the return address. -/
theorem rtsPopsPCAndAddsOne : Obligations.RtsPopsPCAndAddsOne := by
  refine ⟨fun s => ⟨rfl, ?_⟩, fun s target fetched hw => ?_⟩
  · rw [← byte_add_one_add_one]
    exact (exec_rts s).trans (congrArg _ (rts_eq s))
  · have hfetched : { ((push16 (s.pc - 1) s).setPc target).tick 1 with pc := fetched } =
        ((push16 (s.pc - 1) s).setPc fetched).tick 1 := rfl
    refine ⟨((push16 (s.pc - 1) s).setPc target).tick 1, _, rfl, exec_rts _, ?_, ?_⟩
    · rw [rts_pc, hfetched, pop16_setPc_tick, pop16_push16_word hw, BitVec.sub_add_cancel]
    · rw [rts_sp, hfetched, pop16_setPc_tick, State.tick_sp, State.setPc_sp, pop16_push16_sp]

/-! ### Interrupt entry and return -/

/-- B and I are bits 4 and 2 (10_state.md rule R26). -/
theorem setFlag_I_setFlag_B (p : Byte) : setFlag .I true (setFlag .B true p) = p ||| 0x14 :=
  BitVec.or_assoc p Flag.B.mask Flag.I.mask

/-- Settles O51: interrupt entry in closed form, with B and I set by one mask. -/
theorem brkTakesTheInterrupt : Obligations.BrkTakesTheInterrupt := by
  intro s
  have hexec : exec .brk s = .next (enterInterrupt (s.pc + 1) s) := rfl
  refine ⟨rfl, ?_⟩
  rw [hexec, enterInterrupt_eq, setFlag_I_setFlag_B, byte_sub_one_sub_one_sub_one, byte_sub_one_sub_one]
  simp only [stackAddr_toNat]
  rfl

/-- A pull that then clears B keeps only bit 5 of the live status (rule R205). -/
theorem setFlag_B_pulledStatus (v p : Byte) :
    setFlag .B false (pulledStatus v p) = (v &&& 0xCF) ||| (p &&& 0x20) := by
  have hv : (0xCF : Byte) &&& ~~~Flag.B.mask = 0xCF := by decide
  have hp : (0x30 : Byte) &&& ~~~Flag.B.mask = 0x20 := by decide
  calc setFlag .B false (pulledStatus v p)
    _ = ((v &&& 0xCF) ||| (p &&& 0x30)) &&& ~~~Flag.B.mask := rfl
    _ = (v &&& 0xCF) ||| (p &&& 0x20) := by
      rw [BitVec.and_or_distrib_right, BitVec.and_assoc, BitVec.and_assoc, hv, hp]

/-- Settles O52: the return in closed form, with the pull and the clearing of B as one mask. -/
theorem rtiReturnsFromTheInterrupt : Obligations.RtiReturnsFromTheInterrupt := by
  intro s
  have hexec : exec .rti s = .next (returnFromInterrupt s) := rfl
  refine ⟨rfl, ?_⟩
  rw [hexec, returnFromInterrupt_eq, setFlag_B_pulledStatus, byte_add_one_add_one_add_one, byte_add_one_add_one]

/-! ### What the pushing forms change -/

/-- Memory after some bytes are pushed, the first at `0x0100 | sp` and each next one slot lower (rule R190). -/
def Memory.pushBytes : List Byte → Byte → Memory → Memory
  | [], _, m => m
  | v :: vs, sp, m => Memory.pushBytes vs (sp - 1) (m.write (256 + sp.toNat) v)

theorem Memory.read_pushBytes_of_ne {addr : Addr} (vs : List Byte) (sp : Byte) (m : Memory)
    (h : ∀ k < vs.length, addr ≠ stackAddr (sp - BitVec.ofNat 8 k)) :
    (m.pushBytes vs sp).read addr.toNat = m.read addr.toNat := by
  induction vs generalizing sp m with
  | nil => rfl
  | cons v vs ih =>
    have hfirst : addr ≠ stackAddr sp := by simpa using h 0 (by simp)
    have hrest : ∀ k < vs.length, addr ≠ stackAddr (sp - 1 - BitVec.ofNat 8 k) := by
      intro k hk
      have hslot : sp - 1 - BitVec.ofNat 8 k = sp - BitVec.ofNat 8 (k + 1) := by
        rw [BitVec.sub_sub, BitVec.add_comm, BitVec.ofNat_add]
        rfl
      rw [hslot]
      exact h (k + 1) (Nat.succ_lt_succ hk)
    have hne := toNat_ne_of_ne hfirst
    rw [stackAddr_toNat] at hne
    exact (ih (sp - 1) _ hrest).trans (m.read_write_of_ne hne v)

/-- A pushing form pushes one byte into each slot; else it writes `PC`, `CYC`, and in BRK the flags B and I of `P`. -/
theorem exec_of_pushing {target : Addr} {q : Instr × Nat}
    (hq : q ∈ [(Instr.pha, 1), (.php, 1), (.jsr target, 2), (.brk, 3)]) (s : State) :
    ∃ (vs : List Byte) (p : Byte) (pc : Addr) (n : Nat), vs.length = q.2 ∧
      exec q.1 s = .next
        { s with mem := s.mem.pushBytes vs s.sp, sp := s.sp - BitVec.ofNat 8 q.2, p := p, pc := pc, cyc := n } ∧
      ∀ f : Flag, getFlag f p = if q.1 = .brk ∧ (f = .B ∨ f = .I) then true else getFlag f s.p := by
  fin_cases hq
  · obtain ⟨⟨-, hpha⟩, -⟩ := pushesWriteOneByte s
    exact ⟨[s.a], s.p, s.pc, _, rfl, hpha, by simp⟩
  · obtain ⟨-, -, hphp⟩ := pushesWriteOneByte s
    exact ⟨[s.p ||| 0x30], s.p, s.pc, _, rfl, hphp, by simp⟩
  · obtain ⟨-, hjsr⟩ := jsrPushesTheAddressOfItsLastByte target s
    exact ⟨[hiByte (s.pc - 1), loByte (s.pc - 1)], s.p, target, _, rfl, hjsr, by simp⟩
  · obtain ⟨-, hbrk⟩ := brkTakesTheInterrupt s
    rw [← byte_sub_one_sub_one] at hbrk
    refine ⟨[hiByte (s.pc + 1), loByte (s.pc + 1), s.p ||| 0x30], s.p ||| 0x14, _, _, rfl, hbrk, fun f => ?_⟩
    rw [← setFlag_I_setFlag_B]
    cases f <;> simp

/-- Settles O57: the pushed bytes fill the slots and no other address. -/
theorem pushingFormsChangeTheStackSlotsOnly : Obligations.PushingFormsChangeTheStackSlotsOnly := by
  intro target s q hq
  obtain ⟨vs, p, pc, n, hlen, hexec, hflag⟩ := exec_of_pushing hq s
  refine ⟨_, hexec, fun addr hne => ?_, rfl, rfl, rfl, rfl, hflag⟩
  rw [← hlen] at hne
  exact Memory.read_pushBytes_of_ne vs s.sp s.mem hne

end Sys2Proof.Machine

end

/-! ## Flag instructions and NOP (45_flags_nop.md) -/

section

namespace Sys2Proof.Machine

/-- Each flag instruction is one `set_flag` and a tick (rules R220 to R226). -/
theorem exec_flagSetterRow {r : Forms.BranchRow} (h : r ∈ Forms.flagSetters) (s : State) :
    opcodeByte r.instr = r.opcode ∧ exec r.instr s = .next ((s.setFlag r.flag r.value).tick 1) := by
  fin_cases h <;> exact ⟨rfl, rfl⟩

/-- NOP is a tick (rule R227). -/
theorem exec_nop (s : State) : exec .nop s = .next (s.tick 1) := rfl

/-- A flag write and a tick touch `P` and `CYC` alone. -/
theorem State.tick_setFlag_eq (f : Flag) (b : Bool) (n : Nat) (s : State) :
    (s.setFlag f b).tick n = { s with p := Machine.setFlag f b s.p, cyc := s.cyc + n } := rfl

/-- Settles O54: the seven rows are one `set_flag` and a tick, and NOP is the tick without it. -/
theorem flagInstructionsWriteOneFlag : Obligations.FlagInstructionsWriteOneFlag := by
  refine fun s => ⟨fun r hr => ?_, rfl, exec_nop s⟩
  obtain ⟨hop, hexec⟩ := exec_flagSetterRow hr s
  exact ⟨hop, hexec.trans (congrArg _ (State.tick_setFlag_eq r.flag r.value 1 s))⟩

end Sys2Proof.Machine

end

/-! ## The step and the loop of execute (46_dispatch_loop.md) -/

section

namespace Sys2Proof.Machine

/-! ### What the fetch finds -/

theorem fetchInstr_of_decode {s : State} {i : Instr} {rest : List Byte}
    (h : decode (bytesFrom s 3 s.pc) = .instr i rest) : fetchInstr s = .instr i (s.pastFetch i.length) := by
  rcases fetchInstr_decode_cases s with ⟨hu, -⟩ | ⟨j, rest', hd, hf⟩
  · cases (decode_none hu (bytesFrom s 2 (s.pc + 1))).symm.trans h
  · cases hd.symm.trans h
    exact hf

theorem stateAfterHalt_eq (s : State) : stateAfterHalt s = { s with pc := s.pc + 1, cyc := s.cyc + 1 } := rfl

/-- Settles O6: the state past the instruction's bytes is the one the statement writes out. Every decoded instruction is
well-formed, so that hypothesis is not needed. -/
theorem stepRunsTheDecodedInstruction : Obligations.StepRunsTheDecodedInstruction :=
  fun _ _ _ _ hd => step_of_decode hd

/-- Settles O7: no row holds the byte, and a halt leaves the state after the opcode fetch. -/
theorem stepOnAnUnknownOpcodeHalts : Obligations.StepOnAnUnknownOpcodeHalts :=
  fun s hu => ⟨step_of_unknownOpcode hu, stateAfterHalt_eq s⟩

/-! ### The cost of an instruction -/

/-- Settles O15: the listed accesses are the fetched bytes and the data accesses, and `totalCycles_eq` adds the ticks. -/
theorem costIsAccessesPlusTicks : Obligations.CostIsAccessesPlusTicks := by
  intro s i rest hd hn
  rw [stepAccesses_instr (fetchInstr_of_decode hd) hn, List.length_append, fetchAccesses_length, totalCycles_eq]

/-- The most conditional cycles that a row of 30_encoding.md rule R83 may add to its column: two for a branch, one for a
row that pays for a page cross. -/
def maxConditionalCycles (i : Instr) : Nat :=
  match i.operand with
  | .rel _ => 2
  | _ => if paysPageCross i then 1 else 0

theorem conditionalCycles_le (i : Instr) (s : State) : conditionalCycles i s ≤ maxConditionalCycles i := by
  rw [conditionalCycles, maxConditionalCycles]
  cases i.operand with
  | mem m =>
    dsimp only
    cases paysPageCross i <;> cases crossesPage (baseAddr m s) (effAddr m s) <;> decide
  | rel o =>
    dsimp only
    cases branchTaken i.mnemonic s.p <;> cases crossesPage s.pc (s.pc + sext8 o) <;> decide
  | _ => exact Nat.zero_le _

/-- The cycles column, row by row: at least 2, and at most 7 with the row's conditional cycles. -/
theorem baseCycles_bounds (i : Instr) : 2 ≤ baseCycles i ∧ baseCycles i + maxConditionalCycles i ≤ 7 := by
  cases i <;> exact ⟨Nat.le_of_ble_eq_true rfl, Nat.le_of_ble_eq_true rfl⟩

/-- Settles O16: the column is in bounds with the most that its row may add. -/
theorem costsRangeFromTwoToSeven : Obligations.CostsRangeFromTwoToSeven := by
  intro i s
  obtain ⟨hlo, hhi⟩ := baseCycles_bounds i
  have hcond := conditionalCycles_le i s
  rw [totalCycles]
  omega

/-! ### No instruction reads `CYC` -/

/-- A state that differs from `s` in `n` more cycles alone. -/
theorem State.eq_tick {s t : State} {n : Nat} (hc : t.cyc = s.cyc + n) (h : { s with cyc := t.cyc } = t) :
    t = s.tick n := by
  rw [hc] at h
  exact h.symm

theorem addInto_tick (f : Byte → Byte) (src : Source) (s : State) (n : Nat) :
    addInto f src (s.tick n) = (addInto f src s).tick n := by
  simp only [addInto_eq, sourceValue_tick, sourceCycles_tick]
  exact State.eq_tick (Nat.add_right_comm _ _ _) rfl

theorem compare_tick (reg : Reg) (src : Source) (s : State) (n : Nat) :
    compare reg src (s.tick n) = (compare reg src s).tick n := by
  simp only [compare_eq, sourceValue_tick, sourceCycles_tick]
  exact State.eq_tick (Nat.add_right_comm _ _ _) rfl

theorem logic_tick (f : Byte → Byte → Byte) (src : Source) (s : State) (n : Nat) :
    logic f src (s.tick n) = (logic f src s).tick n := by
  simp only [logic_eq, sourceValue_tick, sourceCycles_tick]
  exact State.eq_tick (Nat.add_right_comm _ _ _) rfl

theorem bitTest_tick (src : Source) (s : State) (n : Nat) : bitTest src (s.tick n) = (bitTest src s).tick n := by
  simp only [bitTest_eq, sourceValue_tick, sourceCycles_tick]
  exact State.eq_tick (Nat.add_right_comm _ _ _) rfl

theorem load_tick (reg : Reg) (src : Source) (s : State) (n : Nat) :
    load reg src (s.tick n) = (load reg src s).tick n := by
  rw [load_eq, load_eq, sourceValue_tick, sourceCycles_tick]
  cases reg <;> exact State.eq_tick (Nat.add_right_comm _ _ _) rfl

theorem store_tick (reg : Reg) (m : MemOperand) (s : State) (n : Nat) :
    store reg m (s.tick n) = (store reg m s).tick n := by
  simp only [store_eq, effAddr_tick, resolveCycles_tick]
  cases reg <;> exact State.eq_tick (Nat.add_right_comm _ n (_ + 1)) rfl

theorem modify_tick (f : ModifyFn) (m : MemOperand) (s : State) (n : Nat) :
    modify f m (s.tick n) = (modify f m s).tick n := by
  simp only [modify_eq, effAddr_tick, resolveCycles_tick]
  exact State.eq_tick (Nat.add_right_comm _ n (_ + 3)) rfl

theorem putReg_tick (reg : Reg) (v : Byte) (s : State) (n : Nat) : putReg reg v (s.tick n) = (putReg reg v s).tick n := by
  cases reg <;> exact State.eq_tick (Nat.add_right_comm _ n 1) rfl

theorem branch_tick (cond : Bool) (rel8 : Byte) (s : State) (n : Nat) :
    branch cond rel8 (s.tick n) = (branch cond rel8 s).tick n := by
  simp only [branch_eq]
  exact State.eq_tick (Nat.add_right_comm _ _ _) rfl

theorem enterInterrupt_tick (ret : Addr) (s : State) (n : Nat) :
    enterInterrupt ret (s.tick n) = (enterInterrupt ret s).tick n := by
  simp only [enterInterrupt_eq]
  exact State.eq_tick (Nat.add_right_comm _ n 6) rfl

theorem adc_tick (src : Source) (s : State) (n : Nat) :
    adc src (s.tick n) = Forms.mapNext (State.tick n) (adc src s) := by
  rw [adc, adc, addInto_tick, apply_ite (Forms.mapNext _)]
  rfl

theorem sbc_tick (src : Source) (s : State) (n : Nat) :
    sbc src (s.tick n) = Forms.mapNext (State.tick n) (sbc src s) := by
  rw [sbc, sbc, addInto_tick, apply_ite (Forms.mapNext _)]
  rfl

/-- An instruction run with `n` more cycles spent does the same and ends with `n` more spent. -/
theorem exec_tick (i : Instr) (s : State) (n : Nat) :
    exec i (s.tick n) = Forms.mapNext (State.tick n) (exec i s) := by
  have hs := exec_shape i
  generalize i.mnemonic = m, i.operand = o, exec i = e at hs ⊢
  cases hs with
  | adc src => exact adc_tick src s n
  | sbc src => exact sbc_tick src s n
  | cmp src | cpx src | cpy src => exact congrArg _ (compare_tick _ src s n)
  | and src | ora src | eor src => exact congrArg _ (logic_tick _ src s n)
  | bit m => exact congrArg _ (bitTest_tick _ s n)
  | lda src | ldx src | ldy src => exact congrArg _ (load_tick _ src s n)
  | sta m | stx m | sty m => exact congrArg _ (store_tick _ m s n)
  | inc m | dec m | asl m | lsr m | rol m | ror m => exact congrArg _ (modify_tick _ m s n)
  | tax | tay | txa | tya | inx | iny | dex | dey => exact congrArg _ (putReg_tick _ _ s n)
  | bpl o | bmi o | bvc o | bvs o | bcc o | bcs o | bne o | beq o => exact congrArg _ (branch_tick _ o s n)
  | brk => exact congrArg _ (enterInterrupt_tick _ s n)
  | jmpAbs addr => rfl
  | jmpInd ptr | pha | php => exact congrArg _ (State.eq_tick (Nat.add_right_comm _ n 2) rfl)
  | pla | plp | jsr addr => exact congrArg _ (State.eq_tick (Nat.add_right_comm _ n 3) rfl)
  | rts | rti => exact congrArg _ (State.eq_tick (Nat.add_right_comm _ n 5) rfl)
  | _ => exact congrArg _ (State.eq_tick (Nat.add_right_comm _ n 1) rfl)

theorem pastFetch_tick (k n : Nat) (s : State) : (s.tick n).pastFetch k = (s.pastFetch k).tick n :=
  State.eq_tick (Nat.add_right_comm _ n k) rfl

theorem stateAfterHalt_tick (n : Nat) (s : State) : stateAfterHalt (s.tick n) = (stateAfterHalt s).tick n :=
  pastFetch_tick 1 n s

/-- Settles O13: the bytes at `PC` are the same, and `exec_tick` runs what they decode to. -/
theorem stepDoesNotDependOnCyc : Obligations.StepDoesNotDependOnCyc := by
  intro s n
  rcases step_decode_cases s with ⟨hu, hs⟩ | ⟨i, rest, hd, hs⟩
  · rw [hs]
    exact step_of_unknownOpcode (s := s.tick n) hu
  · rw [hs, ← exec_tick, ← pastFetch_tick]
    exact step_of_decode hd

/-! ### The loop, by what the next step does -/

theorem runLoop_of_budget_le {budget : Nat} {s : State} (h : budget ≤ s.cyc) (n : Nat) :
    runLoop budget n s = .budgetExhausted s := by
  cases n with
  | zero => rfl
  | succ n => rw [runLoop, if_pos h]

section

variable {budget : Nat} {s : State} (hb : s.cyc < budget) (n : Nat)

include hb

theorem runLoop_of_next {t : State} (hs : step s = .next t) : runLoop budget (n + 1) s = runLoop budget n t := by
  rw [runLoop, if_neg (Nat.not_le_of_gt hb), hs]

theorem runLoop_of_fault {f : Fault} (hs : step s = .fault f) : runLoop budget (n + 1) s = .aborted f := by
  rw [runLoop, if_neg (Nat.not_le_of_gt hb), hs]

theorem runLoop_of_refused {r : Refusal} (hs : step s = .refused r) :
    runLoop budget (n + 1) s = .halted (s.byteAt s.pc) (stateAfterHalt s) := by
  obtain ⟨rfl, -⟩ := refusal_of_step_refused hs
  rw [runLoop, if_neg (Nat.not_le_of_gt hb), hs]

end

/-! ### The bounds of a call -/

theorem cyc_le_of_step_next {s t : State} (h : step s = .next t) : t.cyc ≤ s.cyc + 7 := by
  rcases step_decode_cases s with ⟨-, hs⟩ | ⟨i, rest, hd, -⟩
  · cases hs.symm.trans h
  · obtain ⟨-, hcyc⟩ := everyStepCostsWhatTheTableSays s t i rest hd h
    obtain ⟨-, hmax⟩ := costsRangeFromTwoToSeven i (s.pastFetch i.length)
    omega

/-- The upper bounds of a call's cycles (46_dispatch_loop.md rule R234, decision D16), and the cycle of a halt's fetch. -/
def RunEnd.NearBudget (budget : Nat) : RunEnd → Prop
  | .budgetExhausted t => t.cyc ≤ budget + 6
  | .halted _ t => 1 ≤ t.cyc ∧ t.cyc ≤ budget
  | .aborted _ | .refused _ => True

/-- Every instruction starts with a cycle of the budget left and costs at most 7. -/
theorem runLoop_nearBudget {budget : Nat} (n : Nat) {s : State} (h : s.cyc ≤ budget + 6) :
    (runLoop budget n s).NearBudget budget := by
  induction n generalizing s with
  | zero => exact h
  | succ n ih =>
    rcases Nat.lt_or_ge s.cyc budget with hb | hb
    · cases hs : step s with
      | next t =>
        have hle := cyc_le_of_step_next hs
        rw [runLoop_of_next hb n hs]
        exact ih (by omega)
      | fault f =>
        rw [runLoop_of_fault hb n hs]
        trivial
      | refused r =>
        rw [runLoop_of_refused hb n hs]
        exact ⟨Nat.le_add_left 1 s.cyc, hb⟩
    · rw [runLoop_of_budget_le hb]
      exact h

theorem execute_nearBudget (budget : Nat) (s : State) : (execute budget s).NearBudget budget :=
  runLoop_nearBudget budget (Nat.zero_le _)

/-- Settles O18: `execute_allowed` bounds the cycles from below and `execute_nearBudget` from above. -/
theorem executeReturnsWithinSixOfItsBudget : Obligations.ExecuteReturnsWithinSixOfItsBudget := by
  intro budget s
  have hlo := execute_allowed budget s
  have hhi := execute_nearBudget budget s
  refine ⟨fun t he => ?_, fun op t he => ?_, rfl, fun t he => congrArg RunEnd.cycles he,
    fun op t he => congrArg RunEnd.cycles he⟩
  · rw [he] at hlo hhi
    exact ⟨hlo, hhi⟩
  · rw [he] at hhi
    exact hhi

/-! ### A call in slices -/

/-- Any two counts of instructions that are enough for the budget give the same end. -/
theorem runLoop_eq_of_enough {budget n k : Nat} {s : State} (hn : budget ≤ s.cyc + n) (hk : budget ≤ s.cyc + k) :
    runLoop budget n s = runLoop budget k s := by
  induction n generalizing s k with
  | zero => exact (runLoop_of_budget_le hn k).symm
  | succ n ih =>
    cases k with
    | zero => exact runLoop_of_budget_le hk (n + 1)
    | succ k =>
      rcases Nat.lt_or_ge s.cyc budget with hb | hb
      · cases hs : step s with
        | next t =>
          have hlt := cyc_lt_of_step_next hs
          rw [runLoop_of_next hb n hs, runLoop_of_next hb k hs]
          exact ih (by omega) (by omega)
        | fault f => rw [runLoop_of_fault hb n hs, runLoop_of_fault hb k hs]
        | refused r => rw [runLoop_of_refused hb n hs, runLoop_of_refused hb k hs]
      · rw [runLoop_of_budget_le hb, runLoop_of_budget_le hb]

/-- A run that ended by its budget `b` goes on, under a budget no smaller, from the state it ended in. -/
theorem runLoop_continue {b n budget k k' : Nat} {s t : State} (h : runLoop b n s = .budgetExhausted t)
    (hb : b ≤ budget) (hk : budget ≤ s.cyc + k) (hk' : budget ≤ t.cyc + k') :
    runLoop budget k s = runLoop budget k' t := by
  induction n generalizing s k with
  | zero =>
    cases h
    exact runLoop_eq_of_enough hk hk'
  | succ n ih =>
    rcases Nat.lt_or_ge s.cyc b with hlt | hge
    · cases hs : step s with
      | next u =>
        have hcyc := cyc_lt_of_step_next hs
        rw [runLoop_of_next hlt n hs] at h
        calc runLoop budget k s
            = runLoop budget (k + 1) s := runLoop_eq_of_enough hk (by omega)
          _ = runLoop budget k u := runLoop_of_next (by omega) k hs
          _ = runLoop budget k' t := ih h (by omega)
      | fault f => cases (runLoop_of_fault hlt n hs).symm.trans h
      | refused r => cases (runLoop_of_refused hlt n hs).symm.trans h
    · cases (runLoop_of_budget_le hge _).symm.trans h
      exact runLoop_eq_of_enough hk hk'

/-- The loop with the budget and the cycles spent both raised by `n` runs the same instructions. -/
theorem runLoop_tick (budget k n : Nat) (s : State) :
    runLoop (budget + n) k (s.tick n) = Forms.mapEnd (State.tick n) (runLoop budget k s) := by
  induction k generalizing s with
  | zero => rfl
  | succ k ih =>
    have htick := stepDoesNotDependOnCyc s n
    rcases Nat.lt_or_ge s.cyc budget with hb | hb
    · have hb' : (s.tick n).cyc < budget + n := Nat.add_lt_add_right hb n
      cases hs : step s with
      | next t =>
        rw [hs] at htick
        rw [runLoop_of_next hb k hs, runLoop_of_next hb' k htick, ih]
      | fault f =>
        rw [hs] at htick
        rw [runLoop_of_fault hb k hs, runLoop_of_fault hb' k htick]
        rfl
      | refused r =>
        rw [hs] at htick
        rw [runLoop_of_refused hb k hs, runLoop_of_refused hb' k htick, stateAfterHalt_tick]
        rfl
    · rw [runLoop_of_budget_le hb, runLoop_of_budget_le (Nat.add_le_add_right hb n)]
      rfl

/-- Settles O20: the longer call goes on from `t` (`runLoop_continue`), and the cycles of the first call, which `t` still
counts, shift the second (`runLoop_tick`). -/
theorem executeInSlicesIsOneLongerCall : Obligations.ExecuteInSlicesIsOneLongerCall := by
  intro n m s t h
  have hn : n ≤ t.cyc := by
    have hallowed := execute_allowed n s
    rwa [h] at hallowed
  have ht : t = State.tick t.cyc { t with cyc := 0 } := State.eq_tick (Nat.zero_add _).symm rfl
  calc execute (t.cyc + m) s
      = runLoop (t.cyc + m) m t := runLoop_continue h (by omega) (Nat.le_add_left _ _) le_rfl
    _ = runLoop (m + t.cyc) m (State.tick t.cyc { t with cyc := 0 }) := by rw [← ht, Nat.add_comm]
    _ = Forms.mapEnd (State.tick t.cyc) (execute m t) := runLoop_tick m m t.cyc _

end Sys2Proof.Machine

end

/-! ## Interrupt entry, then return (60_exceptions.md) -/

section

namespace Sys2Proof.Machine

/-! ### The stack after interrupt entry -/

section

variable (ret : Addr) (s : State)

theorem enterInterrupt_sp : (enterInterrupt ret s).sp = s.sp - 3 := by
  rw [enterInterrupt_eq, ← byte_sub_one_sub_one_sub_one]

/-- The vector's reads and the flags touch no byte of memory, so it is what the three pushes leave. -/
theorem byteAt_enterInterrupt (addr : Addr) :
    (enterInterrupt ret s).byteAt addr = (push8 (pushedStatus s.p) (push16 ret s)).byteAt addr := by
  simp only [enterInterrupt_eq, push8_eq, push16_eq, State.byteAt]

/-- The status goes below the two bytes of the return address. -/
theorem byteAt_enterInterrupt_of_ne {addr : Addr} (h : addr ≠ stackAddr (s.sp - 2)) :
    (enterInterrupt ret s).byteAt addr = (push16 ret s).byteAt addr := by
  rw [← push16_sp ret] at h
  exact (byteAt_enterInterrupt ret s addr).trans (byteAt_push8_of_ne h _)

variable {s} (hw : s.mem.wf = true)

include hw

theorem byteAt_enterInterrupt_status :
    (enterInterrupt ret s).byteAt (stackAddr ((enterInterrupt ret s).sp + 1)) = pushedStatus s.p := by
  have hslot : (enterInterrupt ret s).sp + 1 = (push16 ret s).sp := by
    rw [enterInterrupt_sp, push16_sp]
    bv_omega
  rw [hslot, byteAt_enterInterrupt]
  exact byteAt_push8_same ((State.Frame.push16 ret s).wf hw) _

theorem byteAt_enterInterrupt_lo :
    (enterInterrupt ret s).byteAt (stackAddr ((enterInterrupt ret s).sp + 2)) = loByte ret := by
  have hslot : s.sp - 3 + 2 = s.sp - 1 := by bv_omega
  have hne : s.sp - 1 ≠ s.sp - 2 := by bv_omega
  rw [enterInterrupt_sp, hslot, byteAt_enterInterrupt_of_ne ret s fun h => hne (stackAddr_injective h)]
  exact byteAt_push16_lo hw ret

theorem byteAt_enterInterrupt_hi :
    (enterInterrupt ret s).byteAt (stackAddr ((enterInterrupt ret s).sp + 3)) = hiByte ret := by
  have hne : s.sp ≠ s.sp - 2 := by bv_omega
  rw [enterInterrupt_sp, BitVec.sub_add_cancel,
    byteAt_enterInterrupt_of_ne ret s fun h => hne (stackAddr_injective h)]
  exact byteAt_push16_hi hw ret

end

/-! ### The status after entry and return -/

theorem and_0x20_eq_of_unusedBit_eq {p q : Byte} (h : unusedBit q = unusedBit p) : q &&& 0x20 = p &&& 0x20 := by
  have hbit : q.getLsbD 5 = p.getLsbD 5 := h
  rw [show (0x20 : Byte) = BitVec.twoPow 8 5 by decide, BitVec.and_twoPow, BitVec.and_twoPow, hbit]

/-- The push forces bits 4 and 5 only, the pull takes both from the live status, and the return then clears bit 4. -/
theorem setFlag_B_pulledStatus_pushedStatus {p q : Byte} (h : unusedBit q = unusedBit p) :
    setFlag .B false (pulledStatus (pushedStatus p) q) = setFlag .B false p := by
  have hforced : (0x30 : Byte) &&& 0xCF = 0#8 := by decide
  calc setFlag .B false (pulledStatus (pushedStatus p) q)
    _ = ((p ||| 0x30) &&& 0xCF) ||| (q &&& 0x20) := setFlag_B_pulledStatus (pushedStatus p) q
    _ = (p &&& 0xCF) ||| (p &&& 0x20) := by
      rw [BitVec.and_or_distrib_right, hforced, BitVec.or_zero, and_0x20_eq_of_unusedBit_eq h]
    _ = p &&& (0xCF ||| 0x20) := BitVec.and_or_distrib_left.symm

/-- Settles O53: the handler's three slots hold the bytes that the entry pushed, and RTI pulls them in reverse order. -/
theorem rtiUndoesBrk : Obligations.RtiUndoesBrk := by
  intro s t h hw hbrk hsp hbit hslots
  obtain rfl : enterInterrupt (s.pc + 1) s = t := Host.Outcome.next.inj hbrk
  have hstatus := (hslots 1 (by simp)).trans (byteAt_enterInterrupt_status _ hw)
  have hlo := (hslots 2 (by simp)).trans (byteAt_enterInterrupt_lo _ hw)
  have hhi := (hslots 3 (by simp)).trans (byteAt_enterInterrupt_hi _ hw)
  refine ⟨returnFromInterrupt h, rfl, ?_⟩
  rw [returnFromInterrupt_eq, byte_add_one_add_one_add_one, byte_add_one_add_one, hsp, hstatus, hlo, hhi, word16_hi_lo,
    setFlag_B_pulledStatus_pushedStatus (hbit.trans (exec_unusedBit hbrk)), enterInterrupt_sp, BitVec.sub_add_cancel]
  exact ⟨rfl, rfl, rfl⟩

end Sys2Proof.Machine

end

/-! ## Reset and host access (70_reset_and_hazards.md) -/

section

namespace Sys2Proof.Machine

/-! ### Reset -/

/-- Settles O22: reset builds its state from its arguments and the parameters alone, and a status of 0 has no flag. -/
theorem resetLeavesWhatTheTableSays : Obligations.ResetLeavesWhatTheTableSays :=
  fun _ _ _ => ⟨rfl, fun _ => BitVec.getLsbD_zero⟩

/-- Settles O11: the empty memory of `State.reset` is canonical. -/
theorem resetHasTheInvariant : Obligations.ResetHasTheInvariant :=
  ⟨afterReset_inv _ _ rfl, fun cfg resetPc _ hw => afterReset_inv cfg resetPc hw⟩

/-! ### A budget of one instruction -/

/-- Settles O21: the call starts with no cycle spent, so its one turn of the loop runs. -/
theorem aBudgetOfOneRunsOneInstruction : Obligations.ABudgetOfOneRunsOneInstruction := by
  intro s
  have hb : { s with cyc := 0 }.cyc < 1 := Nat.one_pos
  exact ⟨fun _ => runLoop_of_next hb 0, fun _ => runLoop_of_fault hb 0,
    fun hu => runLoop_of_refused hb 0 (step_of_unknownOpcode (s := { s with cyc := 0 }) hu)⟩

/-! ### Copying bytes to memory -/

theorem addr_add_one_add_ofNat (addr : Addr) (k : Nat) :
    addr + 1 + BitVec.ofNat 16 k = addr + BitVec.ofNat 16 (k + 1) := by
  rw [BitVec.add_assoc, BitVec.add_comm 1, BitVec.ofNat_add]
  rfl

/-- An address that the copy does not reach reads as before. -/
theorem Memory.read_writeBytes_of_ne {addr : Addr} (bs : List Byte) (start : Addr) (m : Memory)
    (h : ∀ k < bs.length, addr ≠ start + BitVec.ofNat 16 k) :
    (writeBytes bs start m).read addr.toNat = m.read addr.toNat := by
  induction bs generalizing start m with
  | nil => rfl
  | cons b rest ih =>
    have hfirst : addr ≠ start := by simpa using h 0 (Nat.succ_pos _)
    have hrest : ∀ k < rest.length, addr ≠ start + 1 + BitVec.ofNat 16 k := fun k hk => by
      rw [addr_add_one_add_ofNat]
      exact h (k + 1) (Nat.succ_lt_succ hk)
    exact (ih (start + 1) _ hrest).trans (m.read_write_of_ne (toNat_ne_of_ne hfirst) b)

/-- Short of a whole turn of the address space, no later byte of the copy falls on its first address. -/
theorem ne_add_ofNat_succ (addr : Addr) {k : Nat} (hk : k + 1 < 65536) : addr ≠ addr + BitVec.ofNat 16 (k + 1) := by
  bv_omega

/-- Byte `k` of the copy is read `k` addresses on, the wrap at the top of memory included. -/
theorem Memory.read_writeBytes_getElem {bs : List Byte} (start : Addr) {m : Memory} (hw : m.wf = true)
    (hlen : bs.length ≤ 65536) {k : Nat} (hk : k < bs.length) :
    (writeBytes bs start m).read (start + BitVec.ofNat 16 k).toNat = bs[k] := by
  induction bs generalizing start m k with
  | nil => cases hk
  | cons b rest ih =>
    rw [List.length_cons] at hlen hk
    cases k with
    | zero =>
      have hrest : ∀ j < rest.length, start ≠ start + 1 + BitVec.ofNat 16 j := fun j hj => by
        rw [addr_add_one_add_ofNat]
        exact ne_add_ofNat_succ start (by omega)
      rw [BitVec.add_zero]
      exact (read_writeBytes_of_ne rest (start + 1) _ hrest).trans (read_write_same hw _ b)
    | succ k =>
      rw [← addr_add_one_add_ofNat]
      exact ih (start + 1) (wf_write_addr hw start b) (by omega) (by omega)

/-- Settles O24: the image is copied from the header's address upwards, and memory alone is written. -/
theorem loadProgramCopiesTheImage : Obligations.LoadProgramCopiesTheImage :=
  fun s b0 b1 image hw hlen => ⟨rfl, fun _ hk => Memory.read_writeBytes_getElem (word16 b1 b0) hw hlen hk,
    fun _ h => Memory.read_writeBytes_of_ne image (word16 b1 b0) s.mem h, rfl⟩

end Sys2Proof.Machine

end
